-- ==== Sys2Proof/Word.lean ====
section
/-! DEFINITION. The word types of the controller (spec 00_scope.md R6, R10; 10_state.md R20). -/

namespace Sys2Proof

/-- A timestamp or a duration in nanoseconds, `W_TIME = 64` bits (R6). -/
abbrev Time := BitVec 64

/-- The 40-bit payload (R21). -/
abbrev Frame := BitVec 40

/-- One field of the frame (R70). -/
abbrev Byte := BitVec 8

/-- A level: `false` is low (0), `true` is high (1) (R10). -/
abbrev Level := Bool

/-- `N_BITS`, the payload length in bits (R7). -/
def nBits : Nat := 40

end Sys2Proof
end

