-- ==== Sys2Proof/Syntax.lean ====
section
/-! DEFINITION. The instructions (one constructor per row of spec/opcode_table.json) and the names the encodings of
30_encoding.md stand for. -/

namespace Sys2Proof

/-- The sixteen rows of the opcode table: four host commands (format C, R91) and twelve sequencer micro-operations
(format S, R96). None has an operand field (R92). -/
inductive Instr where
  | nop            -- NOP, R216
  | poll           -- POLL, R213
  | rsv2           -- RSV2, R100
  | rsv3           -- RSV3, R100
  | seqIdle        -- SEQ.IDLE, R161
  | seqReqHigh     -- SEQ.REQ_HIGH, R162
  | seqReqLow      -- SEQ.REQ_LOW, R163
  | seqReqRelease  -- SEQ.REQ_RELEASE, R164
  | seqTurnArm     -- SEQ.TURN_ARM, R165
  | seqTurnWait    -- SEQ.TURN_WAIT, R167
  | seqAckLow      -- SEQ.ACK_LOW, R168
  | seqAckHigh     -- SEQ.ACK_HIGH, R169
  | seqBitLow      -- SEQ.BIT_LOW, R191
  | seqBitHigh     -- SEQ.BIT_HIGH, R194
  | seqDone        -- SEQ.DONE, R170
  | seqFailed      -- SEQ.FAILED, R171
  deriving DecidableEq, Repr

/-- The seven states of the sequencer (R24). The code 7 is no state (R101), so it has no constructor. -/
inductive Phase where
  | idle
  | requesting
  | awaitingResponseLow
  | awaitingResponseHigh
  | readingBits
  | done
  | failed
  deriving DecidableEq, Repr

/-- The timed sub-steps inside `Requesting` (R25). -/
inductive ReqStep where
  | reqHigh
  | reqLow
  | reqRelease
  | reqTurn
  deriving DecidableEq, Repr

/-- A pin direction (R10, R33). -/
inductive Direction where
  | input
  | output
  deriving DecidableEq, Repr

/-- The outcome of the most recent reading cycle (R32, R98). The codes 6 and 7 are never written (R101). -/
inductive Status where
  | none
  | valid
  | edgeTimeout
  | checksumMismatch
  | timingViolation
  | ioError
  deriving DecidableEq, Repr

/-- The failures that are raised through `raise Fail(code)` (R231, R232, R234, R236). `ChecksumMismatch` is not one of
them (R233). -/
inductive Failure where
  | edgeTimeout
  | timingViolation
  | ioError
  deriving DecidableEq, Repr

/-- The answer to a command (R93). The codes 5 to 7 are never produced (R101). -/
inductive Rsp where
  | none
  | accepted
  | notReady
  | busy
  | illegal
  deriving DecidableEq, Repr

/-- One GpioPort action (R12, R66); the pin of every action is the constant `PIN`. -/
inductive Action where
  | configure (d : Direction)
  | write (b : Level)
  | read
  deriving DecidableEq, Repr

/-- The source's EdgeMeasurement (R97, R141): the level observed after the transition and the elapsed duration. -/
structure EdgeMeasurement where
  level : Level
  duration : Time
  deriving DecidableEq, Repr

/-- The three outcomes of one EdgeTimer step (R99, R143). -/
inductive EdgeOutcome where
  | pending
  | timeout
  | edge (m : EdgeMeasurement)
  deriving DecidableEq, Repr

/-- Which layer owns a timeout during bit reading (R7, R198). -/
inductive BitTimeoutPolicy where
  | decoderInvalid
  | sequencerAbort
  deriving DecidableEq, Repr

/-- The input ports as sampled at one sample instant (R61). -/
structure Input where
  rst : Bool
  now : Time
  pinIn : Level
  ioErr : Bool
  cmdValid : Bool
  cmd : BitVec 2
  deriving DecidableEq, Repr, Inhabited

end Sys2Proof
end

