-- ==== Sys2Proof/Config.lean ====
section
/-! DEFINITION. The configuration record (spec 00_scope.md R7) and the model's free inputs. -/

namespace Sys2Proof

/-- The parameters of R7. `PIN` is five bits wide, so a pin of 32 or more cannot be written down (R63, U1). `N_BITS` and
`W_TIME` are widths and stand in Word.lean; `SAMPLE_PERIOD` is a property of the inputs (U10). -/
structure Config where
  pin : BitVec 5
  tStartLow : Time
  tRelease : Time
  tTurnaround : Time
  tAckMin : Time
  tAckMax : Time
  tEdgeTimeout : Time
  tBitThreshold : Time
  tCooldown : Time
  bitTimeoutPolicy : BitTimeoutPolicy
  deriving DecidableEq, Repr

/-- The value of every fixed parameter and the default of every open one (R7). -/
def Config.default : Config where
  pin := 22
  tStartLow := 20000000
  tRelease := 20000
  tTurnaround := 20000
  tAckMin := 40000
  tAckMax := 90000
  tEdgeTimeout := 200000
  tBitThreshold := 35000
  tCooldown := 1000000000
  bitTimeoutPolicy := .decoderInvalid

/-- The inputs of sample instant `n` where the state lists none: a free value, about which nothing can be proved
(R17: a model quantifies over every sequence of inputs). DESIGN CHOICE, safe: log entry 2. -/
opaque Config.freeInput : Nat → Input

end Sys2Proof
end

