-- ==== Sys2Proof/WellFormed.lean ====
section
/-! DEFINITION. What is well formed: configurations (00_scope.md R7, R8; 20_memory.md R63), command words and state codes
(30_encoding.md R91, R96). An instruction has no operand (R92), so every `Instr` is well formed. -/

namespace Sys2Proof

/-- R283's bound on a reading cycle when no sample gap exceeds `gap` ns. -/
def Config.longestCycle (c : Config) (gap : Nat) : Nat :=
  c.tStartLow.toNat + c.tRelease.toNat + c.tTurnaround.toNat + 82 * c.tEdgeTimeout.toNat + 87 * gap

/-- `T_START_LOW` lies in its window (R7). -/
def Config.startLowInRange (c : Config) : Bool :=
  20000000 ≤ c.tStartLow.toNat && c.tStartLow.toNat ≤ 30000000

/-- `T_RELEASE` lies in its window (R7). -/
def Config.releaseInRange (c : Config) : Bool :=
  20000 ≤ c.tRelease.toNat && c.tRelease.toNat ≤ 40000

/-- `T_ACK_MIN <= T_ACK_MAX` (R8). -/
def Config.ackWindowOrdered (c : Config) : Bool :=
  c.tAckMin.toNat ≤ c.tAckMax.toNat

/-- `T_EDGE_TIMEOUT >= T_ACK_MAX` (R8). -/
def Config.edgeTimeoutCoversAck (c : Config) : Bool :=
  c.tAckMax.toNat ≤ c.tEdgeTimeout.toNat

/-- `T_EDGE_TIMEOUT > T_BIT_THRESHOLD` (R8). -/
def Config.edgeTimeoutCoversThreshold (c : Config) : Bool :=
  c.tBitThreshold.toNat < c.tEdgeTimeout.toNat

/-- `T_COOLDOWN` greater than the longest possible cycle (R8, R283), taken at the sampling resolution of R270(c).
DEDUCED: log entry 4. -/
def Config.cooldownCoversCycle (c : Config) : Bool :=
  c.longestCycle 1000 < c.tCooldown.toNat

/-- The parameters R7 gives one value, at that value. -/
def Config.documented (c : Config) : Bool :=
  c.tTurnaround = 20000 && c.tAckMin = 40000 && c.tAckMax = 90000 && c.tBitThreshold = 35000 &&
    c.tCooldown = 1000000000

/-- The ranges of R7 and the constraints of R8. -/
def Config.wf (c : Config) : Bool :=
  c.startLowInRange && c.releaseInRange && c.ackWindowOrdered && c.edgeTimeoutCoversAck &&
    c.edgeTimeoutCoversThreshold && c.cooldownCoversCycle

/-- A configuration for pin `pin` with the other parameters of `c`: refused (`none`) for a pin outside `0 .. 31`
(R63, U1) and for parameters outside R7 and R8. -/
def Config.build (pin : Nat) (c : Config) : Option Config :=
  if pin < 32 && c.wf then some { c with pin := BitVec.ofNat 5 pin } else none

/-- The 3-bit words that present a command: `cmd_valid` is set (R91). -/
def commandWordWf (w : BitVec 3) : Bool :=
  w.getLsbD 2

/-- The 7-bit state codes that exist: `phase` is not 7 (R96, R101). -/
def stateCodeWf (sc : BitVec 7) : Bool :=
  sc.extractLsb' 4 3 != 7#3

end Sys2Proof
end

