-- ==== Sys2Proof/Decode.lean ====
section
/-! DEFINITION. The encodings of 30_encoding.md: the field codes, the decoders of formats C and S, and after them the
encoder. -/

namespace Sys2Proof

/-! ## Field codes -/

/-- Codes of `phase` (R24, R95). -/
def Phase.code : Phase → BitVec 3
  | .idle => 0
  | .requesting => 1
  | .awaitingResponseLow => 2
  | .awaitingResponseHigh => 3
  | .readingBits => 4
  | .done => 5
  | .failed => 6

/-- The phase of a 3-bit code; 7 is no state (R24, R101). -/
def Phase.ofCode (c : BitVec 3) : Option Phase :=
  match c.toNat with
  | 0 => some .idle
  | 1 => some .requesting
  | 2 => some .awaitingResponseLow
  | 3 => some .awaitingResponseHigh
  | 4 => some .readingBits
  | 5 => some .done
  | 6 => some .failed
  | _ => none

/-- Codes of `req_step` (R25, R95). -/
def ReqStep.code : ReqStep → BitVec 2
  | .reqHigh => 0
  | .reqLow => 1
  | .reqRelease => 2
  | .reqTurn => 3

/-- The sub-step of a 2-bit code (R25). -/
def ReqStep.ofCode (c : BitVec 2) : ReqStep :=
  match c.toNat with
  | 0 => .reqHigh
  | 1 => .reqLow
  | 2 => .reqRelease
  | _ => .reqTurn

/-- Codes of a direction (R10, R33). -/
def Direction.code : Direction → BitVec 1
  | .input => 0
  | .output => 1

/-- Codes of format T (R98). -/
def Status.code : Status → BitVec 3
  | .none => 0
  | .valid => 1
  | .edgeTimeout => 2
  | .checksumMismatch => 3
  | .timingViolation => 4
  | .ioError => 5

/-- The outcome of a format T code; 6 and 7 are never written (R98, R101). -/
def Status.ofCode (c : BitVec 3) : Option Status :=
  match c.toNat with
  | 0 => some .none
  | 1 => some .valid
  | 2 => some .edgeTimeout
  | 3 => some .checksumMismatch
  | 4 => some .timingViolation
  | 5 => some .ioError
  | _ => Option.none

/-- Codes of format A (R93). -/
def Rsp.code : Rsp → BitVec 3
  | .none => 0
  | .accepted => 1
  | .notReady => 2
  | .busy => 3
  | .illegal => 4

/-- The answer of a format A code; 5 to 7 are never produced (R93, R101). -/
def Rsp.ofCode (c : BitVec 3) : Option Rsp :=
  match c.toNat with
  | 0 => some .none
  | 1 => some .accepted
  | 2 => some .notReady
  | 3 => some .busy
  | 4 => some .illegal
  | _ => Option.none

/-- The status a raised failure leaves (R231, R232, R234). -/
def Failure.status : Failure → Status
  | .edgeTimeout => .edgeTimeout
  | .timingViolation => .timingViolation
  | .ioError => .ioError

/-- Format M: `level` above the 64 bits of `duration_ns` (R90, R97). -/
def EdgeMeasurement.word (m : EdgeMeasurement) : BitVec 65 :=
  (BitVec.ofBool m.level ++ m.duration).cast (by decide)

/-- Format C from its fields: `cmd_valid` above `cmd` (R90, R91). -/
def commandWordOf (cmdValid : Bool) (cmd : BitVec 2) : BitVec 3 :=
  (BitVec.ofBool cmdValid ++ cmd).cast (by decide)

/-- Format S from its fields, most significant first: `phase`, `req_step`, `half`, `armed` (R90, R94). -/
def stateCodeOf (phase : Phase) (reqStep : ReqStep) (half armed : Bool) : BitVec 7 :=
  (phase.code ++ reqStep.code ++ BitVec.ofBool half ++ BitVec.ofBool armed).cast (by decide)

/-! ## The fields of a frame (format F, R70, R97) -/

/-- Humidity, integer byte: `frame[39:32]`. -/
def Frame.hI (f : Frame) : Byte := f.extractLsb' 32 8

/-- Humidity, fraction byte: `frame[31:24]`. -/
def Frame.hF (f : Frame) : Byte := f.extractLsb' 24 8

/-- Temperature, integer byte: `frame[23:16]`. -/
def Frame.tI (f : Frame) : Byte := f.extractLsb' 16 8

/-- Temperature, fraction byte: `frame[15:8]`. -/
def Frame.tF (f : Frame) : Byte := f.extractLsb' 8 8

/-- Checksum byte: `frame[7:0]`. -/
def Frame.c (f : Frame) : Byte := f.extractLsb' 0 8

/-- The frame of five bytes, the first one sent most significant (R70). -/
def Frame.ofBytes (hI hF tI tF c : Byte) : Frame :=
  (hI ++ hF ++ tI ++ tF ++ c).cast (by decide)

/-! ## Decoders -/

/-- Why a word is no instruction: `noCommand` is a command word without `cmd_valid` (R91, R122), `unreachablePhase` a
state code with `phase = 7` (R101), `noFormat` a table word with a bit set that no format has. -/
inductive Reject where
  | noCommand
  | unreachablePhase
  | noFormat
  deriving DecidableEq, Repr

/-- What a decoder answers. -/
inductive Decoded where
  | ok (i : Instr)
  | rejected (r : Reject)
  deriving DecidableEq, Repr

/-- One row of an opcode map: a word `w` selects the row when `w &&& mask = pattern` (R96). -/
structure Row (n : Nat) where
  pattern : BitVec n
  mask : BitVec n
  instr : Instr
  deriving DecidableEq, Repr

/-- A word selects a row (R96). -/
def Row.selects {n : Nat} (r : Row n) (w : BitVec n) : Bool :=
  w &&& r.mask == r.pattern

/-- The format C rows (R91, R106). -/
def commandRows : List (Row 3) :=
  [ ⟨0b100, 0b111, .nop⟩,
    ⟨0b101, 0b111, .poll⟩,
    ⟨0b110, 0b111, .rsv2⟩,
    ⟨0b111, 0b111, .rsv3⟩ ]

/-- The format S rows (R96). -/
def stateRows : List (Row 7) :=
  [ ⟨0b0000000, 0b1110000, .seqIdle⟩,
    ⟨0b0010000, 0b1111100, .seqReqHigh⟩,
    ⟨0b0010100, 0b1111100, .seqReqLow⟩,
    ⟨0b0011000, 0b1111100, .seqReqRelease⟩,
    ⟨0b0011100, 0b1111101, .seqTurnArm⟩,
    ⟨0b0011101, 0b1111101, .seqTurnWait⟩,
    ⟨0b0100000, 0b1110000, .seqAckLow⟩,
    ⟨0b0110000, 0b1110000, .seqAckHigh⟩,
    ⟨0b1000000, 0b1110010, .seqBitLow⟩,
    ⟨0b1000010, 0b1110010, .seqBitHigh⟩,
    ⟨0b1010000, 0b1110000, .seqDone⟩,
    ⟨0b1100000, 0b1110000, .seqFailed⟩ ]

/-- The command a 3-bit command word presents (R91). -/
def decodeCommand (w : BitVec 3) : Decoded :=
  match commandRows.find? (fun r => r.selects w) with
  | some r => .ok r.instr
  | none => .rejected .noCommand

/-- The micro-operation a 7-bit state code selects (R96). -/
def decodeStateCode (sc : BitVec 7) : Decoded :=
  match stateRows.find? (fun r => r.selects sc) with
  | some r => .ok r.instr
  | none => .rejected .unreachablePhase

/-- A word of the block: a command word at the command port, or a state code (R106). The two never share a wire. -/
inductive CodeWord where
  | command (w : BitVec 3)
  | stateCode (sc : BitVec 7)
  deriving DecidableEq, Repr

/-- The decoder of the block (R106). -/
def decode : CodeWord → Decoded
  | .command w => decodeCommand w
  | .stateCode sc => decodeStateCode sc

/-- Which of the two formats a table word of `nbits` bits is in. Three bits are a command word and seven a state code.
In one whole byte both stand right-aligned: the words 4 to 7 are read as command words, every other one below 128 as a
state code. DESIGN CHOICE: log entry 7. -/
def tableCodeWord (nbits w : Nat) : Option CodeWord :=
  if nbits ≤ 3 then
    if w < 8 then some (.command (BitVec.ofNat 3 w)) else none
  else if w < 128 then
    if nbits ≠ 7 ∧ 4 ≤ w ∧ w < 8 then some (.command (BitVec.ofNat 3 w))
    else some (.stateCode (BitVec.ofNat 7 w))
  else none

/-- The decoder on a word as spec/opcode_table.json numbers it. -/
def decodeTableWordNamed (nbits w : Nat) : Decoded :=
  match tableCodeWord nbits w with
  | some c => decode c
  | none => .rejected .noFormat

/-- The instruction the decoder reads from a word as spec/opcode_table.json numbers it. -/
def decodeTableWord (nbits w : Nat) : Option Instr :=
  match decodeTableWordNamed nbits w with
  | .ok i => some i
  | .rejected _ => none

/-! ## Encoder -/

/-- The word of an instruction, its ignored bits 0 (R91, R96). -/
def encode : Instr → CodeWord
  | .nop => .command 0b100
  | .poll => .command 0b101
  | .rsv2 => .command 0b110
  | .rsv3 => .command 0b111
  | .seqIdle => .stateCode 0b0000000
  | .seqReqHigh => .stateCode 0b0010000
  | .seqReqLow => .stateCode 0b0010100
  | .seqReqRelease => .stateCode 0b0011000
  | .seqTurnArm => .stateCode 0b0011100
  | .seqTurnWait => .stateCode 0b0011101
  | .seqAckLow => .stateCode 0b0100000
  | .seqAckHigh => .stateCode 0b0110000
  | .seqBitLow => .stateCode 0b1000000
  | .seqBitHigh => .stateCode 0b1000010
  | .seqDone => .stateCode 0b1010000
  | .seqFailed => .stateCode 0b1100000

/-- The mnemonic of an instruction, as spec/opcode_table.json spells it. -/
def Instr.mnemonic : Instr → String
  | .nop => "NOP"
  | .poll => "POLL"
  | .rsv2 => "RSV2"
  | .rsv3 => "RSV3"
  | .seqIdle => "SEQ.IDLE"
  | .seqReqHigh => "SEQ.REQ_HIGH"
  | .seqReqLow => "SEQ.REQ_LOW"
  | .seqReqRelease => "SEQ.REQ_RELEASE"
  | .seqTurnArm => "SEQ.TURN_ARM"
  | .seqTurnWait => "SEQ.TURN_WAIT"
  | .seqAckLow => "SEQ.ACK_LOW"
  | .seqAckHigh => "SEQ.ACK_HIGH"
  | .seqBitLow => "SEQ.BIT_LOW"
  | .seqBitHigh => "SEQ.BIT_HIGH"
  | .seqDone => "SEQ.DONE"
  | .seqFailed => "SEQ.FAILED"

end Sys2Proof
end

