-- ==== Sys2Proof/Machine/State.lean ====
section
/-! DEFINITION. The state of the controller (spec 10_state.md), its reset value, and the reasons a step can stop. -/

namespace Sys2Proof.Machine

/-- The thirteen registers (R20). -/
structure Regs where
  /-- The payload shift register (R21). -/
  frame : Frame
  /-- The timestamp the current hold or wait is measured from (R22). -/
  tMark : Time
  /-- The timestamp of the last gate-pass (R23). -/
  lastTrigger : Time
  /-- The state of the sequencer (R24). -/
  phase : Phase
  /-- The sub-step inside `Requesting` (R25). -/
  reqStep : ReqStep
  /-- Which half of a bit-period is waited out: `false` the low, `true` the high one (R26). -/
  half : Bool
  /-- How many payload bits have been shifted in, six bits (R27). -/
  bitCount : BitVec 6
  /-- Whether the EdgeTimer has taken its entry sample (R28). -/
  armed : Bool
  /-- The level the EdgeTimer compares the pin against (R29). -/
  refLevel : Level
  /-- Whether `lastTrigger` holds a timestamp (R30). -/
  haveLast : Bool
  /-- The outcome of the most recent reading cycle (R32). -/
  status : Status
  /-- The pin's logical direction (R33). -/
  pinDir : Direction
  /-- The level last written to the pin (R33). -/
  pinOut : Level
  deriving DecidableEq, Repr

/-- The reset values of R39. -/
def Regs.reset : Regs where
  frame := 0
  tMark := 0
  lastTrigger := 0
  phase := .idle
  reqStep := .reqHigh
  half := false
  bitCount := 0
  armed := false
  refLevel := false
  haveLast := false
  status := .none
  pinDir := .output
  pinOut := true

/-- The whole machine: the registers `S` of the spec, and beside them what the spec calls the arguments and results of the
step function (R36, R120), held here because a step is a function of the state alone (log entries 1 to 3, 9). -/
structure State where
  /-- The configuration record (R7); no step writes it. -/
  cfg : Config
  /-- The thirteen registers (R20). -/
  regs : Regs
  /-- The inputs of the coming sample instants, the next one first. -/
  inputs : List Input
  /-- How many steps have been taken (R13); it only draws a free input where `inputs` is empty. -/
  instant : Nat
  /-- The answer `rsp` of the last step (R38, R93). -/
  rsp : Rsp
  /-- The action list of the last step (R66). -/
  actions : List Action
  deriving DecidableEq, Repr

/-- The machine right after reset: the registers of R39, no answer and no action (R125), the default configuration of R7,
and no input listed. -/
def State.reset : State where
  cfg := Config.default
  regs := Regs.reset
  inputs := []
  instant := 0
  rsp := .none
  actions := []

/-- Why a step stops the machine. -/
inductive Fault where
  /-- Raised by `step`, with `rst = 0`, in a state whose `bit_count` holds one of the unreachable codes 41 to 63: R101 and
  93_implementation_defined.md U5 say that such a state has no step. Safe: the machine stops. Also the answer of a command
  where the state code selects no micro-operation, which no `Regs` does (`phase = 7` cannot be written down). -/
  | unreachableCode
  deriving DecidableEq, Repr

/-- Why an instruction is refused. -/
inductive Refusal where
  /-- Raised by `exec` for an instruction without a meaning. No instruction of this model is without one. Safe. -/
  | notModelled (mnemonic : String)
  deriving DecidableEq, Repr

end Sys2Proof.Machine
end

