-- ==== Sys2Proof/Machine/Operands.lean ====
section
/-! DEFINITION. What a step reads: the sample of this instant, the command word, the state code, elapsed time
(20_memory.md R61, R62; 30_encoding.md R94; 00_scope.md R11). -/

namespace Sys2Proof

/-- The command word `(cmd_valid, cmd)` of a sample (R91). -/
def Input.commandWord (x : Input) : BitVec 3 :=
  commandWordOf x.cmdValid x.cmd

/-- A sample that presents no command (R122). -/
def Input.withoutCommand (x : Input) : Input :=
  { x with cmdValid := false }

/-- A sample that presents the command word `w`, with `rst = 0`. -/
def Input.presenting (x : Input) (w : BitVec 3) : Input :=
  { x with rst := false, cmdValid := w.getLsbD 2, cmd := w.extractLsb' 0 2 }

/-- A sample instant at which nothing happens: time 0, the line low, no error, no command, no reset. -/
def Input.quiet : Input where
  rst := false
  now := 0
  pinIn := false
  ioErr := false
  cmdValid := false
  cmd := 0

end Sys2Proof

namespace Sys2Proof.Machine

/-- `dur(now, t)`: the time from mark `t` to `now`, modulo 2^64 (R11). -/
def dur (now t : Time) : Time :=
  now - t

/-- The inputs of this sample instant (R13, R61): the first one listed, and where none is listed a free value
(log entry 2). -/
def State.sample (s : State) : Input :=
  match s.inputs with
  | x :: _ => x
  | [] => Config.freeInput s.instant

/-- The state code `sc` of the registers (R94). -/
def Regs.stateCode (r : Regs) : BitVec 7 :=
  stateCodeOf r.phase r.reqStep r.half r.armed

/-- A state whose present sample is replaced by `x`. -/
def State.withSample (s : State) (x : Input) : State :=
  { s with inputs := x :: s.inputs.tail }

/-- The registers with the four fields of the state code `sc` loaded from it; with `phase = 7`, which is no state (R101),
they stay as they are. -/
def Regs.withStateCode (r : Regs) (sc : BitVec 7) : Regs :=
  match Phase.ofCode (sc.extractLsb' 4 3) with
  | some p =>
    { r with
      phase := p
      reqStep := ReqStep.ofCode (sc.extractLsb' 2 2)
      half := sc.getLsbD 1
      armed := sc.getLsbD 0 }
  | none => r

/-- The sample `withFetchWord` edits: the next one listed, or a quiet one where none is listed. -/
def State.listedSample (s : State) : Input :=
  s.inputs.headD Input.quiet

/-- The state in which the code word `c` is what the next step decodes: a command word stands at the command port of the
next sample; a state code stands in the four sequencer registers, with no command presented. -/
def State.presenting (s : State) (c : CodeWord) : State :=
  match c with
  | .command w => s.withSample (s.listedSample.presenting w)
  | .stateCode sc =>
    { s.withSample { s.listedSample.withoutCommand with rst := false } with regs := s.regs.withStateCode sc }

end Sys2Proof.Machine
end

