-- ==== Sys2Proof/Machine/Flags.lean ====
section
/-! DEFINITION. The block has no condition codes (10_state.md R31); these are the conditions its transitions test, and the
outputs that are functions of the state alone (R37). -/

namespace Sys2Proof

/-- The phases of a running cycle (R37). -/
def Phase.isBusy : Phase → Bool
  | .idle => false
  | .requesting => true
  | .awaitingResponseLow => true
  | .awaitingResponseHigh => true
  | .readingBits => true
  | .done => false
  | .failed => false

end Sys2Proof

namespace Sys2Proof.Machine

/-- `busy`: a reading cycle is in progress (R37). -/
def Regs.busy (r : Regs) : Bool :=
  r.phase.isBusy

/-- `gate(S, now)`: no gate-pass yet, or at least `T_COOLDOWN` since the last one (R211). -/
def gate (cfg : Config) (now : Time) (r : Regs) : Bool :=
  !r.haveLast || cfg.tCooldown ≤ dur now r.lastTrigger

/-- `turn_ok`: the line fell, and within `T_TURNAROUND` (R167). -/
def turnOk (cfg : Config) (m : EdgeMeasurement) : Bool :=
  m.level == false && m.duration ≤ cfg.tTurnaround

/-- `in_ack_window`: closed at both ends (R168). -/
def inAckWindow (cfg : Config) (d : Time) : Bool :=
  cfg.tAckMin ≤ d && d ≤ cfg.tAckMax

/-- `bit_value`: a high half longer than `T_BIT_THRESHOLD` is a 1 (R193). -/
def bitValue (cfg : Config) (d : Time) : Bool :=
  cfg.tBitThreshold < d

/-- `checksum_ok`: the checksum byte is the sum of the four data bytes modulo 256 (R196). -/
def checksumOk (f : Frame) : Bool :=
  f.c == f.hI + f.hF + f.tI + f.tF

/-- A timed hold is over: at least `hold` has elapsed since the mark (R163, R164). -/
def holdOver (r : Regs) (x : Input) (hold : Time) : Bool :=
  hold ≤ dur x.now r.tMark

/-- `bit_count` holds one of the codes 41 to 63, which are unreachable (R101). -/
def Regs.unreachableCount (r : Regs) : Bool :=
  nBits < r.bitCount.toNat

/-! ## Outputs (R37, R61) -/

/-- `pin_sel`: the constant `PIN`. -/
def State.pinSel (s : State) : BitVec 5 :=
  s.cfg.pin

/-- `phase_o`. -/
def Regs.phaseO (r : Regs) : BitVec 3 :=
  r.phase.code

/-- `rpt_valid`: a report is present. -/
def Regs.rptValid (r : Regs) : Bool :=
  r.phase == .done || r.phase == .failed

/-- `rpt_status`. -/
def Regs.rptStatus (r : Regs) : BitVec 3 :=
  r.status.code

/-- `rpt_humidity`: the humidity-integer byte of a valid frame, else 0. -/
def Regs.rptHumidity (r : Regs) : Byte :=
  if r.status = .valid then r.frame.hI else 0

/-- `rpt_temperature`: the temperature-integer byte of a valid frame, else 0. -/
def Regs.rptTemperature (r : Regs) : Byte :=
  if r.status = .valid then r.frame.tI else 0

/-- The report word, format P (R90). -/
def Regs.reportWord (r : Regs) : BitVec 20 :=
  (BitVec.ofBool r.rptValid ++ r.rptStatus ++ r.rptHumidity ++ r.rptTemperature).cast (by decide)

end Sys2Proof.Machine
end

