-- ==== Sys2Proof/Machine/Ops.lean ====
section
/-! DEFINITION. The operations the instructions share: what a micro-operation yields, raising a failure and leaving it
(60_exceptions.md R236, R238), the start of a cycle (44_poll_scheduler.md R214, R215), reset (40_step.md R125), and the
end of a step. -/

namespace Sys2Proof.Machine

/-- What a micro-operation yields: the registers after it and its action list (R120). -/
structure Effect where
  regs : Regs
  actions : List Action
  deriving DecidableEq, Repr

/-- A command's answer, and whether it starts a cycle (R120, R123). -/
structure Answer where
  rsp : Rsp
  accept : Bool
  deriving DecidableEq, Repr

/-- The restore sequence of R236. -/
def restore : List Action :=
  [.configure .output, .write true]

/-- `raise Fail(code)` (R236): the registers `r` as they stood, with the five writes of the rule and no other; the actions
issued before it, with the restore appended. `io_err` is not looked at. -/
def fail (code : Failure) (issued : List Action) (r : Regs) : Effect where
  regs :=
    { r with
      phase := .failed
      status := code.status
      armed := false
      pinDir := .output
      pinOut := true }
  actions := issued ++ restore

/-- What an accepted `POLL` clears and records whatever `io_err` says: the gate-pass update of R212 and the clearing of
R214 and R215. -/
def clearForCycle (now : Time) (r : Regs) : Regs :=
  { r with
    lastTrigger := now
    haveLast := true
    frame := 0
    bitCount := 0
    half := false
    armed := false
    status := .none }

/-- `start_cycle()` (R214), and with `io_err = 1` the failure of R215. It is also the only way out of `Done` and `Failed`
other than reset (R238). -/
def startCycle (x : Input) (r : Regs) : Effect :=
  if x.ioErr then
    fail .ioError [.configure .output, .write true] (clearForCycle x.now r)
  else
    { regs :=
        { clearForCycle x.now r with
          phase := .requesting
          reqStep := .reqHigh
          pinDir := .output
          pinOut := true }
      actions := [.configure .output, .write true] }

/-- The end of a step: all register writes take effect together, the answer and the action list stand at the outputs, and
the sample is consumed (R120). -/
def commit (s : State) (rsp : Rsp) (e : Effect) : State :=
  { s with
    regs := e.regs
    rsp := rsp
    actions := e.actions
    inputs := s.inputs.tail
    instant := s.instant + 1 }

/-- A step with `rst = 1` (R125). -/
def resetStep (s : State) : State :=
  commit s .none { regs := Regs.reset, actions := [] }

end Sys2Proof.Machine
end

