-- ==== Sys2Proof/Machine/EdgeTimer.lean ====
section
/-! DEFINITION. The EdgeTimer (41_edge_timer.md). -/

namespace Sys2Proof.Machine

/-- `edge_step` (R143): the level test comes first, and the deadline test is strict. -/
def edgeStep (r : Regs) (x : Input) (timeout : Time) : EdgeOutcome :=
  if x.pinIn != r.refLevel then
    .edge { level := x.pinIn, duration := dur x.now r.tMark }
  else if timeout < dur x.now r.tMark then
    .timeout
  else
    .pending

/-- Entering a chained wait at the instant of the edge that ended the one before (R146). -/
def rearm (x : Input) (r : Regs) : Regs :=
  { r with refLevel := x.pinIn, tMark := x.now }

/-- The entry sample of a wait (R142). -/
def arm (x : Input) (r : Regs) : Regs :=
  { rearm x r with armed := true }

/-- The samples after the entry sample of a `wait_for_edge`, up to the first that is not `Pending` (R144). `none`: the call
has not returned within the samples given. -/
def awaitEdge (timeout : Time) (r : Regs) : List Input → Option EdgeOutcome
  | [] => none
  | x :: xs =>
    match edgeStep r x timeout with
    | .pending => awaitEdge timeout r xs
    | .timeout => some .timeout
    | .edge m => some (.edge m)

/-- The source's `wait_for_edge(pin, timeout)` entered at the first of the samples (R105, R140, R144). -/
def waitForEdge (timeout : Time) (r : Regs) : List Input → Option EdgeOutcome
  | [] => none
  | x :: xs => awaitEdge timeout (arm x r) xs

end Sys2Proof.Machine
end

