-- ==== Sys2Proof/Machine/PollScheduler.lean ====
section
/-! DEFINITION. The command decode against the state (40_step.md R122, R123; 44_poll_scheduler.md). The commands'
meanings are in Commands.lean. -/

namespace Sys2Proof.Machine

/-- No command (R122). -/
def answerNoCommand : Answer :=
  { rsp := .none, accept := false }

/-- `NOP` (R123(a), R216). -/
def answerNop : Answer :=
  { rsp := .none, accept := false }

/-- `POLL` (R123(c) to (e), R213): the gate is evaluated only while no cycle runs. -/
def answerPoll (s : State) : Answer :=
  if s.regs.busy then { rsp := .busy, accept := false }
  else if gate s.cfg s.sample.now s.regs then { rsp := .accepted, accept := true }
  else { rsp := .notReady, accept := false }

/-- The reserved code 2 (R100, R123(b)). -/
def answerRsv2 : Answer :=
  { rsp := .illegal, accept := false }

/-- The reserved code 3 (R100, R123(b)). -/
def answerRsv3 : Answer :=
  { rsp := .illegal, accept := false }

/-- Stage (2) of a step (R120): the command word of this instant decoded against the state. -/
def commandAnswer (s : State) : Answer :=
  match decodeCommand s.sample.commandWord with
  | .ok .nop => answerNop
  | .ok .poll => answerPoll s
  | .ok .rsv2 => answerRsv2
  | .ok .rsv3 => answerRsv3
  | .ok _ => answerNoCommand
  | .rejected _ => answerNoCommand

/-- The source's `ready_to_poll(now)` (R105): true where a `POLL` at this instant is answered `ACCEPTED`, false where it is
answered `NOT_READY`. While a cycle runs, where `POLL` answers `BUSY`, R105 gives no value and R217 says the source has no
such case; with `rst = 1` no command is answered (R120), and R105 gives no value either; false in both is the model's.
DESIGN CHOICE, unsafe: log entry 19. -/
def readyToPoll (s : State) : Bool :=
  !s.sample.rst && (answerPoll s).accept

end Sys2Proof.Machine
end

