-- ==== Sys2Proof/Machine/BitDecoder.lean ====
section
/-! DEFINITION. The micro-operations of the BitDecoder (43_bit_decoder.md), in the form of Handshake.lean. -/

namespace Sys2Proof.Machine

/-- The frame with one more bit: `frame[38:0]` above the new bit (R21, R194). -/
def shiftIn (f : Frame) (b : Bool) : Frame :=
  BitVec.concat (f.extractLsb' 0 39) b

/-- `finish(f)`, the entry into `Done` (R197). -/
def finish (f : Frame) (r : Regs) : Regs :=
  { r with
    phase := .done
    armed := false
    status := if checksumOk f then .valid else .checksumMismatch }

/-- `bit_timeout()` (R198): the checksum of a partial frame is never computed. -/
def bitTimeout (cfg : Config) (issued : List Action) (r : Regs) : Effect :=
  match cfg.bitTimeoutPolicy with
  | .decoderInvalid =>
    { regs := { r with phase := .done, status := .checksumMismatch, armed := false }
      actions := issued }
  | .sequencerAbort => fail .edgeTimeout issued r

/-- A bit shifted in at the edge that ends its high half (R194), the decoder's registers only. -/
def takeBit (cfg : Config) (x : Input) (d : Time) (r : Regs) : Regs :=
  { rearm x r with
    frame := shiftIn r.frame (bitValue cfg d)
    bitCount := r.bitCount + 1
    half := false }

/-- `SEQ.BIT_LOW` (R191). -/
def seqBitLow (cfg : Config) (x : Input) (r : Regs) : Effect :=
  match edgeStep r x cfg.tEdgeTimeout with
  | .pending => { regs := r, actions := [.read] }
  | .timeout => bitTimeout cfg [.read] r
  | .edge _ => { regs := { rearm x r with half := true }, actions := [.read] }

/-- `SEQ.BIT_HIGH` (R194, R195). -/
def seqBitHigh (cfg : Config) (x : Input) (r : Regs) : Effect :=
  match edgeStep r x cfg.tEdgeTimeout with
  | .pending => { regs := r, actions := [.read] }
  | .timeout => bitTimeout cfg [.read] r
  | .edge m =>
    let r' := takeBit cfg x m.duration r
    if r.bitCount + 1 == BitVec.ofNat 6 nBits then
      { regs := finish r'.frame r', actions := [.read] }
    else { regs := r', actions := [.read] }

/-! ## The meanings -/

/-- `SEQ.BIT_LOW` as the instruction of a sample instant. -/
def execSeqBitLow (s : State) : Host.Outcome State Fault Refusal :=
  .next (commit s (commandAnswer s).rsp (seqBitLow s.cfg s.sample s.regs))

/-- `SEQ.BIT_HIGH` as the instruction of a sample instant. -/
def execSeqBitHigh (s : State) : Host.Outcome State Fault Refusal :=
  .next (commit s (commandAnswer s).rsp (seqBitHigh s.cfg s.sample s.regs))

end Sys2Proof.Machine
end

