-- ==== Sys2Proof/Machine/Handshake.lean ====
section
/-! DEFINITION. The micro-operations of the HandshakeSequencer (42_handshake_sequencer.md). Each has a register effect
(`seq…`) and the meaning of its state code as the instruction of a sample instant (`execSeq…`): the effect, with the answer
to whatever command the instant presents (40_step.md R120). -/

namespace Sys2Proof.Machine

/-- `SEQ.IDLE` (R161). -/
def seqIdle (accept : Bool) (x : Input) (r : Regs) : Effect :=
  if accept then startCycle x r else { regs := r, actions := [] }

/-- `SEQ.DONE` (R170). -/
def seqDone (accept : Bool) (x : Input) (r : Regs) : Effect :=
  if accept then startCycle x r else { regs := r, actions := [] }

/-- `SEQ.FAILED` (R171). -/
def seqFailed (accept : Bool) (x : Input) (r : Regs) : Effect :=
  if accept then startCycle x r else { regs := r, actions := [] }

/-- `SEQ.REQ_HIGH` (R162). -/
def seqReqHigh (x : Input) (r : Regs) : Effect :=
  if x.ioErr then fail .ioError [.write false] r
  else
    { regs := { r with pinOut := false, tMark := x.now, reqStep := .reqLow }
      actions := [.write false] }

/-- `SEQ.REQ_LOW` (R163). -/
def seqReqLow (cfg : Config) (x : Input) (r : Regs) : Effect :=
  if holdOver r x cfg.tStartLow then
    if x.ioErr then fail .ioError [.write true] r
    else
      { regs := { r with pinOut := true, tMark := x.now, reqStep := .reqRelease }
        actions := [.write true] }
  else { regs := r, actions := [] }

/-- `SEQ.REQ_RELEASE` (R164). -/
def seqReqRelease (cfg : Config) (x : Input) (r : Regs) : Effect :=
  if holdOver r x cfg.tRelease then
    if x.ioErr then fail .ioError [.configure .input] r
    else
      { regs := { r with pinDir := .input, armed := false, reqStep := .reqTurn }
        actions := [.configure .input] }
  else { regs := r, actions := [] }

/-- `SEQ.TURN_ARM` (R165). -/
def seqTurnArm (x : Input) (r : Regs) : Effect :=
  { regs := arm x r, actions := [.read] }

/-- `SEQ.TURN_WAIT` (R167). -/
def seqTurnWait (cfg : Config) (x : Input) (r : Regs) : Effect :=
  match edgeStep r x cfg.tTurnaround with
  | .pending => { regs := r, actions := [.read] }
  | .timeout => fail .edgeTimeout [.read] r
  | .edge m =>
    if turnOk cfg m then
      { regs := { rearm x r with phase := .awaitingResponseLow }, actions := [.read] }
    else fail .timingViolation [.read] r

/-- `SEQ.ACK_LOW` (R168). -/
def seqAckLow (cfg : Config) (x : Input) (r : Regs) : Effect :=
  match edgeStep r x cfg.tEdgeTimeout with
  | .pending => { regs := r, actions := [.read] }
  | .timeout => fail .edgeTimeout [.read] r
  | .edge m =>
    if inAckWindow cfg m.duration then
      { regs := { rearm x r with phase := .awaitingResponseHigh }, actions := [.read] }
    else fail .timingViolation [.read] r

/-- `SEQ.ACK_HIGH` (R169). -/
def seqAckHigh (cfg : Config) (x : Input) (r : Regs) : Effect :=
  match edgeStep r x cfg.tEdgeTimeout with
  | .pending => { regs := r, actions := [.read] }
  | .timeout => fail .edgeTimeout [.read] r
  | .edge m =>
    if inAckWindow cfg m.duration then
      { regs := { rearm x r with phase := .readingBits }, actions := [.read] }
    else fail .timingViolation [.read] r

/-! ## The meanings -/

/-- `SEQ.IDLE` as the instruction of a sample instant. -/
def execSeqIdle (s : State) : Host.Outcome State Fault Refusal :=
  .next (commit s (commandAnswer s).rsp (seqIdle (commandAnswer s).accept s.sample s.regs))

/-- `SEQ.DONE` as the instruction of a sample instant. -/
def execSeqDone (s : State) : Host.Outcome State Fault Refusal :=
  .next (commit s (commandAnswer s).rsp (seqDone (commandAnswer s).accept s.sample s.regs))

/-- `SEQ.FAILED` as the instruction of a sample instant. -/
def execSeqFailed (s : State) : Host.Outcome State Fault Refusal :=
  .next (commit s (commandAnswer s).rsp (seqFailed (commandAnswer s).accept s.sample s.regs))

/-- `SEQ.REQ_HIGH` as the instruction of a sample instant. -/
def execSeqReqHigh (s : State) : Host.Outcome State Fault Refusal :=
  .next (commit s (commandAnswer s).rsp (seqReqHigh s.sample s.regs))

/-- `SEQ.REQ_LOW` as the instruction of a sample instant. -/
def execSeqReqLow (s : State) : Host.Outcome State Fault Refusal :=
  .next (commit s (commandAnswer s).rsp (seqReqLow s.cfg s.sample s.regs))

/-- `SEQ.REQ_RELEASE` as the instruction of a sample instant. -/
def execSeqReqRelease (s : State) : Host.Outcome State Fault Refusal :=
  .next (commit s (commandAnswer s).rsp (seqReqRelease s.cfg s.sample s.regs))

/-- `SEQ.TURN_ARM` as the instruction of a sample instant. -/
def execSeqTurnArm (s : State) : Host.Outcome State Fault Refusal :=
  .next (commit s (commandAnswer s).rsp (seqTurnArm s.sample s.regs))

/-- `SEQ.TURN_WAIT` as the instruction of a sample instant. -/
def execSeqTurnWait (s : State) : Host.Outcome State Fault Refusal :=
  .next (commit s (commandAnswer s).rsp (seqTurnWait s.cfg s.sample s.regs))

/-- `SEQ.ACK_LOW` as the instruction of a sample instant. -/
def execSeqAckLow (s : State) : Host.Outcome State Fault Refusal :=
  .next (commit s (commandAnswer s).rsp (seqAckLow s.cfg s.sample s.regs))

/-- `SEQ.ACK_HIGH` as the instruction of a sample instant. -/
def execSeqAckHigh (s : State) : Host.Outcome State Fault Refusal :=
  .next (commit s (commandAnswer s).rsp (seqAckHigh s.cfg s.sample s.regs))

end Sys2Proof.Machine
end

