-- ==== Sys2Proof/Machine/Sequencer.lean ====
section
/-! DEFINITION. The dispatch of a step (40_step.md R121): the state code selects exactly one micro-operation. -/

namespace Sys2Proof.Machine

/-- The effect of the micro-operation the state code selects (R96, R121, R124). `none` where it selects none, which no
`Regs` does. -/
def selectedEffect (accept : Bool) (cfg : Config) (x : Input) (r : Regs) : Option Effect :=
  match decodeStateCode r.stateCode with
  | .ok .seqIdle => some (seqIdle accept x r)
  | .ok .seqReqHigh => some (seqReqHigh x r)
  | .ok .seqReqLow => some (seqReqLow cfg x r)
  | .ok .seqReqRelease => some (seqReqRelease cfg x r)
  | .ok .seqTurnArm => some (seqTurnArm x r)
  | .ok .seqTurnWait => some (seqTurnWait cfg x r)
  | .ok .seqAckLow => some (seqAckLow cfg x r)
  | .ok .seqAckHigh => some (seqAckHigh cfg x r)
  | .ok .seqBitLow => some (seqBitLow cfg x r)
  | .ok .seqBitHigh => some (seqBitHigh cfg x r)
  | .ok .seqDone => some (seqDone accept x r)
  | .ok .seqFailed => some (seqFailed accept x r)
  | .ok .nop => none
  | .ok .poll => none
  | .ok .rsv2 => none
  | .ok .rsv3 => none
  | .rejected _ => none

/-- Stages (3) and (4) of a step (R120), given the answer of stage (2). -/
def runSelected (a : Answer) (s : State) : Host.Outcome State Fault Refusal :=
  match selectedEffect a.accept s.cfg s.sample s.regs with
  | some e => .next (commit s a.rsp e)
  | none => .fault .unreachableCode

end Sys2Proof.Machine
end

