-- ==== Sys2Proof/Machine/Commands.lean ====
section
/-! DEFINITION. The host commands as the instruction of a sample instant (30_encoding.md R91, R100; 44_poll_scheduler.md):
the answer, and the micro-operation of the running phase in the same step (40_step.md R120, R124). -/

namespace Sys2Proof.Machine

/-- `NOP` (R216). -/
def execNop (s : State) : Host.Outcome State Fault Refusal :=
  runSelected answerNop s

/-- `POLL` (R213): while busy R217, accepted R214 and R215, not ready R218. -/
def execPoll (s : State) : Host.Outcome State Fault Refusal :=
  runSelected (answerPoll s) s

/-- `RSV2` (R100). -/
def execRsv2 (s : State) : Host.Outcome State Fault Refusal :=
  runSelected answerRsv2 s

/-- `RSV3` (R100). -/
def execRsv3 (s : State) : Host.Outcome State Fault Refusal :=
  runSelected answerRsv3 s

/-- The instruction of a sample instant (R106): the command presented, and where none is presented the micro-operation the
state code selects. Where a command is presented its meaning runs that micro-operation. DEDUCED: log entry 6. -/
def fetch (s : State) : Decoded :=
  match decodeCommand s.sample.commandWord with
  | .ok c => .ok c
  | .rejected _ => decodeStateCode s.regs.stateCode

end Sys2Proof.Machine
end

