-- ==== Sys2Proof/Machine/Dispatch.lean ====
section
/-! DEFINITION. The meaning of every instruction, one arm each. -/

namespace Sys2Proof.Machine

def exec (i : Instr) (s : State) : Host.Outcome State Fault Refusal :=
  match i with
  -- host commands, format C
  | .nop => Sys2Proof.Machine.execNop s
  | .poll => Sys2Proof.Machine.execPoll s
  | .rsv2 => Sys2Proof.Machine.execRsv2 s
  | .rsv3 => Sys2Proof.Machine.execRsv3 s
  -- sequencer micro-operations, format S
  | .seqIdle => Sys2Proof.Machine.execSeqIdle s
  | .seqReqHigh => Sys2Proof.Machine.execSeqReqHigh s
  | .seqReqLow => Sys2Proof.Machine.execSeqReqLow s
  | .seqReqRelease => Sys2Proof.Machine.execSeqReqRelease s
  | .seqTurnArm => Sys2Proof.Machine.execSeqTurnArm s
  | .seqTurnWait => Sys2Proof.Machine.execSeqTurnWait s
  | .seqAckLow => Sys2Proof.Machine.execSeqAckLow s
  | .seqAckHigh => Sys2Proof.Machine.execSeqAckHigh s
  | .seqBitLow => Sys2Proof.Machine.execSeqBitLow s
  | .seqBitHigh => Sys2Proof.Machine.execSeqBitHigh s
  | .seqDone => Sys2Proof.Machine.execSeqDone s
  | .seqFailed => Sys2Proof.Machine.execSeqFailed s

end Sys2Proof.Machine
end

