-- ==== Sys2Proof/Machine/Step.lean ====
section
/-! DEFINITION. The step (40_step.md R120) and where the next instruction is fetched. -/

namespace Sys2Proof.Machine

/-- One sample instant (R120): reset first (R125); a state holding an unreachable code has no step (R101); else the
instruction of the instant. -/
def step (s : State) : Host.Outcome State Fault Refusal :=
  if s.sample.rst then .next (resetStep s)
  else if s.regs.unreachableCount then .fault .unreachableCode
  else
    match fetch s with
    | .ok i => exec i s
    | .rejected _ => .fault .unreachableCode

/-- The state whose next step decodes the word `w`, numbered as spec/opcode_table.json numbers it: a command word is
presented at the command port, a state code is loaded into the sequencer registers (log entry 8). -/
def State.withFetchWord (s : State) (nbits w : Nat) : State :=
  match tableCodeWord nbits w with
  | some c => s.presenting c
  | none => s

end Sys2Proof.Machine
end

