-- ==== Sys2Proof/Machine/Environment.lean ====
section
/-! DEFINITION. The block in its environment: the physical pin, unending runs, and the assumptions of
70_reset_and_hazards.md R262 and R270 as named premises. The step enforces none of them; a claim that needs one takes it. -/

namespace Sys2Proof.Machine

/-! ## The physical pin -/

/-- The direction the last `Configure` of a list asked for, `d` where there is none (R66). -/
def lastDirection (d : Direction) : List Action → Direction
  | [] => d
  | .configure d' :: as => lastDirection d' as
  | .write _ :: as => lastDirection d as
  | .read :: as => lastDirection d as

/-- The level the last `Write` of a list asked for, `b` where there is none (R66). -/
def lastWritten (b : Level) : List Action → Level
  | [] => b
  | .write b' :: as => lastWritten b' as
  | .configure _ :: as => lastWritten b as
  | .read :: as => lastWritten b as

/-- What the GpioPort holds for pin `PIN`: how the pin is configured and the level last written to it. It is not the
registers `pin_dir` and `pin_out`, which a reset loads without an action (R261). -/
structure Port where
  dir : Direction
  out : Level
  deriving DecidableEq, Repr

/-- The port after a list of actions that took effect, in list order (R74). -/
def Port.apply (p : Port) (as : List Action) : Port where
  dir := lastDirection p.dir as
  out := lastWritten p.out as

/-! ## Unending runs -/

/-- What stands at one sample instant: the block before its step, the sample it takes, the port and the wire as the sample
finds them, and the commands the callers ask for. -/
structure Instant where
  state : State
  sample : Input
  port : Port
  wire : Level
  requests : List (BitVec 2)
  deriving DecidableEq, Repr

/-- The block steps from each instant to the next. The sample is put in place at each instant, since the list of a state is
finite (log entry 1). -/
def isTrace (tr : Nat → Instant) : Prop :=
  ∀ i, step ((tr i).state.withSample (tr i).sample) = .next (tr (i + 1)).state

/-- The actions of the step at instant `i`. -/
def issued (tr : Nat → Instant) (i : Nat) : List Action :=
  (tr (i + 1)).state.actions

/-- The time between instants `i` and `i + 1`, by the 64-bit clock. -/
def sampleGap (tr : Nat → Instant) (i : Nat) : Nat :=
  (dur (tr (i + 1)).sample.now (tr i).sample.now).toNat

/-- The time from instant `i` to instant `i + k`, not reduced modulo 2^64. -/
def elapsed (tr : Nat → Instant) (i : Nat) : Nat → Nat
  | 0 => 0
  | k + 1 => elapsed tr i k + sampleGap tr (i + k)

/-- No step resets the block. -/
def neverReset (tr : Nat → Instant) : Prop :=
  ∀ i, (tr i).sample.rst = false

/-! ## The assumptions of R270 -/

/-- (a), modulo 2^64: every gap is below 2^63. "Far below" is no number; log entry 18. -/
def gapsBelowHalf (tr : Nat → Instant) : Prop :=
  ∀ i, sampleGap tr i < 2 ^ 63

/-- (a) Monotonic clock, in either of the rule's two readings. -/
def clockNonDecreasing (tr : Nat → Instant) : Prop :=
  (∀ i, (tr i).sample.now ≤ (tr (i + 1)).sample.now) ∨ gapsBelowHalf tr

/-- (b) Clock progress: from every instant more than any given time elapses. The time is not reduced modulo 2^64, because a
64-bit `dur` exceeds no bound of 2^64 - 1; log entry 18. -/
def clockProgress (tr : Nat → Instant) : Prop :=
  ∀ i d, ∃ k, 0 < k ∧ d < elapsed tr i k

/-- (c) Sampling resolution: less than 1_000 ns from one sample to the next while a cycle is in progress between them. -/
def samplingResolution (tr : Nat → Instant) : Prop :=
  ∀ i, (tr (i + 1)).state.regs.busy = true → sampleGap tr i < 1000

/-- (d) Exclusive pin: whatever its direction, the port changes through actions of this controller alone. Which of them
took effect is left open, since an action may fail (U12). That none takes effect later than its own step is the model's:
DESIGN CHOICE, log entry 20. -/
def pinExclusive (tr : Nat → Instant) : Prop :=
  ∀ i, ∃ done, List.Sublist done (issued tr i) ∧ (tr (i + 1)).port = (tr i).port.apply done

/-- (e) The actions of a step without `io_err` take effect: `io_err = 0` says that none of them failed (R61). The spec leaves
the GpioPort's latency open (R75, N20); that they have taken effect by the next sample, whatever the gap, is the model's:
DESIGN CHOICE, log entry 20. -/
def actionsTakeEffect (tr : Nat → Instant) : Prop :=
  ∀ i, (tr i).sample.ioErr = false → (tr (i + 1)).port = (tr i).port.apply (issued tr i)

/-- (e) Correct `write`: a pin configured as Output carries the level last written. After a reset that is the level the
wire was left at (R261), whatever `pin_out` reads. The spec leaves open how soon the wire follows (R75, N20) and its level
while the sensor drives against the controller (R277, N12); that it carries the written level at every sample, also then, is
the model's: DESIGN CHOICE, log entries 20 and 21. -/
def writeDrivesWire (tr : Nat → Instant) : Prop :=
  ∀ i, (tr i).port.dir = .output → (tr i).wire = (tr i).port.out

/-- (e) Correct `read`: on a pin configured as Input `pin_in` is the level of the wire. -/
def readReturnsWire (tr : Nat → Instant) : Prop :=
  ∀ i, (tr i).port.dir = .input → (tr i).sample.pinIn = (tr i).wire

/-- (e) Correct GpioPort, with the model's choices of log entries 20 and 21. -/
def gpioPortCorrect (tr : Nat → Instant) : Prop :=
  actionsTakeEffect tr ∧ writeDrivesWire tr ∧ readReturnsWire tr

/-- (f) Valid pin: R262(2). It holds of every configuration of this model, whose pin has five bits, and the pin stays
constant because no step writes the configuration. -/
def pinValid (tr : Nat → Instant) : Prop :=
  ∀ i, (tr i).state.cfg.pin.toNat < 32 ∧ (tr i).state.cfg.pin = (tr 0).state.cfg.pin

/-- (g) One host: at most one command is asked for at an instant, and it is the one at the command port. -/
def oneHost (tr : Nat → Instant) : Prop :=
  ∀ i, (tr i).requests = if (tr i).sample.cmdValid then [(tr i).sample.cmd] else []

/-- R262(4): the block has been reset before anything else. -/
def resetFirst (tr : Nat → Instant) : Prop :=
  (tr 0).sample.rst = true

/-! ## The same over a list of samples -/

/-- Every gap of a list of samples is at most `gap` ns; `p` is the timestamp before the first. -/
def gapsAtMost (gap : Nat) : Time → List Input → Prop
  | _, [] => True
  | p, x :: xs => (dur x.now p).toNat ≤ gap ∧ gapsAtMost gap x.now xs

/-- No listed sample resets the block. -/
def noReset (xs : List Input) : Prop :=
  ∀ x ∈ xs, x.rst = false

/-- The low hold stays inside the source's window when no gap exceeds `gap` (R276). -/
def startPulseFits (cfg : Config) (gap : Nat) : Prop :=
  cfg.tStartLow.toNat + gap ≤ 30000000

end Sys2Proof.Machine
end

