-- ==== Sys2Proof/Machine/Listing.lean ====
section
/-! DEFINITION. The consolidated listing of 40_step.md section 5, written down beside the model: one function that tests
the registers directly, with no decoder and no table. The machine does not run it; a statement says the two agree. -/

namespace Sys2Proof.Machine

/-- What the spec's step function yields (R120): `S'`, `rsp`, `actions`. -/
structure StepResult where
  regs : Regs
  rsp : Rsp
  actions : List Action
  deriving DecidableEq, Repr

/-- The `fail(code)` of the listing, over the registers and actions made so far. -/
def listingFail (code : Status) (rsp : Rsp) (r : Regs) (acts : List Action) : StepResult where
  regs := { r with phase := .failed, status := code, pinDir := .output, pinOut := true, armed := false }
  rsp := rsp
  actions := acts ++ [.configure .output, .write true]

/-- The command decode of the listing. -/
def listingCommand (cfg : Config) (r : Regs) (x : Input) : Rsp × Bool :=
  if x.cmdValid then
    if x.cmd = 0 then (.none, false)
    else if x.cmd = 2 ∨ x.cmd = 3 then (.illegal, false)
    else if r.phase = .requesting ∨ r.phase = .awaitingResponseLow ∨ r.phase = .awaitingResponseHigh ∨
        r.phase = .readingBits then (.busy, false)
    else if r.haveLast = false ∨ cfg.tCooldown ≤ x.now - r.lastTrigger then (.accepted, true)
    else (.notReady, false)
  else (.none, false)

/-- The three cases `Idle, Done, Failed` of the listing. -/
def listingRest (accept : Bool) (rsp : Rsp) (r : Regs) (x : Input) : StepResult :=
  if accept then
    let c := { r with
      lastTrigger := x.now, haveLast := true, frame := 0, bitCount := 0, half := false, armed := false, status := .none }
    if x.ioErr then listingFail .ioError rsp c [.configure .output, .write true]
    else
      { regs := { c with phase := .requesting, reqStep := .reqHigh, pinDir := .output, pinOut := true }
        rsp := rsp
        actions := [.configure .output, .write true] }
  else { regs := r, rsp := rsp, actions := [] }

/-- The case `Requesting` of the listing. -/
def listingRequest (cfg : Config) (rsp : Rsp) (r : Regs) (x : Input) : StepResult :=
  match r.reqStep with
  | .reqHigh =>
    if x.ioErr then listingFail .ioError rsp r [.write false]
    else
      { regs := { r with pinOut := false, tMark := x.now, reqStep := .reqLow }
        rsp := rsp
        actions := [.write false] }
  | .reqLow =>
    if cfg.tStartLow ≤ x.now - r.tMark then
      if x.ioErr then listingFail .ioError rsp r [.write true]
      else
        { regs := { r with pinOut := true, tMark := x.now, reqStep := .reqRelease }
          rsp := rsp
          actions := [.write true] }
    else { regs := r, rsp := rsp, actions := [] }
  | .reqRelease =>
    if cfg.tRelease ≤ x.now - r.tMark then
      if x.ioErr then listingFail .ioError rsp r [.configure .input]
      else
        { regs := { r with pinDir := .input, armed := false, reqStep := .reqTurn }
          rsp := rsp
          actions := [.configure .input] }
    else { regs := r, rsp := rsp, actions := [] }
  | .reqTurn =>
    if r.armed = false then
      { regs := { r with refLevel := x.pinIn, tMark := x.now, armed := true }, rsp := rsp, actions := [.read] }
    else if x.pinIn ≠ r.refLevel then
      if x.pinIn = false ∧ x.now - r.tMark ≤ cfg.tTurnaround then
        { regs := { r with phase := .awaitingResponseLow, refLevel := x.pinIn, tMark := x.now }
          rsp := rsp
          actions := [.read] }
      else listingFail .timingViolation rsp r [.read]
    else if cfg.tTurnaround < x.now - r.tMark then listingFail .edgeTimeout rsp r [.read]
    else { regs := r, rsp := rsp, actions := [.read] }

/-- The cases `AwaitingResponseLow, AwaitingResponseHigh` of the listing; `dest` is the phase after an accepted edge. -/
def listingAck (cfg : Config) (dest : Phase) (rsp : Rsp) (r : Regs) (x : Input) : StepResult :=
  if x.pinIn ≠ r.refLevel then
    if cfg.tAckMin ≤ x.now - r.tMark ∧ x.now - r.tMark ≤ cfg.tAckMax then
      { regs := { r with phase := dest, refLevel := x.pinIn, tMark := x.now }, rsp := rsp, actions := [.read] }
    else listingFail .timingViolation rsp r [.read]
  else if cfg.tEdgeTimeout < x.now - r.tMark then listingFail .edgeTimeout rsp r [.read]
  else { regs := r, rsp := rsp, actions := [.read] }

/-- The case `ReadingBits` of the listing. The frame is computed on numbers: `f = ((S.frame << 1) | b) mod 2^40`. -/
def listingBits (cfg : Config) (rsp : Rsp) (r : Regs) (x : Input) : StepResult :=
  if x.pinIn ≠ r.refLevel then
    if r.half = false then
      { regs := { r with half := true, refLevel := x.pinIn, tMark := x.now }, rsp := rsp, actions := [.read] }
    else
      let b := if cfg.tBitThreshold < x.now - r.tMark then 1 else 0
      let n := (2 * r.frame.toNat + b) % 2 ^ 40
      let taken := { r with
        frame := BitVec.ofNat 40 n, bitCount := r.bitCount + 1, half := false, refLevel := x.pinIn, tMark := x.now }
      if r.bitCount.toNat + 1 = 40 then
        let sum := n / 2 ^ 32 % 256 + n / 2 ^ 24 % 256 + n / 2 ^ 16 % 256 + n / 2 ^ 8 % 256
        { regs := { taken with
            phase := .done
            status := if n % 256 = sum % 256 then .valid else .checksumMismatch
            armed := false }
          rsp := rsp
          actions := [.read] }
      else { regs := taken, rsp := rsp, actions := [.read] }
  else if cfg.tEdgeTimeout < x.now - r.tMark then
    if cfg.bitTimeoutPolicy = .decoderInvalid then
      { regs := { r with phase := .done, status := .checksumMismatch, armed := false }, rsp := rsp, actions := [.read] }
    else listingFail .edgeTimeout rsp r [.read]
  else { regs := r, rsp := rsp, actions := [.read] }

/-- `step` of the listing: `step(cfg, S, now, pin_in, cmd_valid, cmd, io_err, rst) -> (S', rsp, actions)`. -/
def listingStep (cfg : Config) (r : Regs) (x : Input) : StepResult :=
  if x.rst then { regs := Regs.reset, rsp := .none, actions := [] }
  else
    let c := listingCommand cfg r x
    match r.phase with
    | .idle => listingRest c.2 c.1 r x
    | .done => listingRest c.2 c.1 r x
    | .failed => listingRest c.2 c.1 r x
    | .requesting => listingRequest cfg c.1 r x
    | .awaitingResponseLow => listingAck cfg .awaitingResponseHigh c.1 r x
    | .awaitingResponseHigh => listingAck cfg .readingBits c.1 r x
    | .readingBits => listingBits cfg c.1 r x

end Sys2Proof.Machine
end

