-- ==== Sys2Proof/Machine/Trace.lean ====
section
/-! DEFINITION. The trace line of a step as data (30_encoding.md R104), the registers by name, and the access summary of
10_state.md R40. -/

namespace Sys2Proof.Machine

/-- The thirteen registers by name (R20). -/
inductive Register where
  | frame
  | tMark
  | lastTrigger
  | phase
  | reqStep
  | half
  | bitCount
  | armed
  | refLevel
  | haveLast
  | status
  | pinDir
  | pinOut
  deriving DecidableEq, Repr

/-- Every register, in the order of R20's table. -/
def Register.all : List Register :=
  [.frame, .tMark, .lastTrigger, .phase, .reqStep, .half, .bitCount,
    .armed, .refLevel, .haveLast, .status, .pinDir, .pinOut]

/-- A register holds the same value in two states. -/
def Register.same (g : Register) (r r' : Regs) : Bool :=
  match g with
  | .frame => r.frame == r'.frame
  | .tMark => r.tMark == r'.tMark
  | .lastTrigger => r.lastTrigger == r'.lastTrigger
  | .phase => r.phase == r'.phase
  | .reqStep => r.reqStep == r'.reqStep
  | .half => r.half == r'.half
  | .bitCount => r.bitCount == r'.bitCount
  | .armed => r.armed == r'.armed
  | .refLevel => r.refLevel == r'.refLevel
  | .haveLast => r.haveLast == r'.haveLast
  | .status => r.status == r'.status
  | .pinDir => r.pinDir == r'.pinDir
  | .pinOut => r.pinOut == r'.pinOut

/-- The registers whose value differs (R104, conflict C12: a register written with the value it held is not listed). -/
def changedRegisters (r r' : Regs) : List Register :=
  Register.all.filter (fun g => !g.same r r')

/-- The registers a micro-operation may write when `accept` is false, as R40's table has them. -/
def busyWrites : Instr → List Register
  | .seqReqHigh => [.tMark, .phase, .reqStep, .armed, .status, .pinDir, .pinOut]
  | .seqReqLow => [.tMark, .phase, .reqStep, .armed, .status, .pinDir, .pinOut]
  | .seqReqRelease => [.phase, .reqStep, .armed, .status, .pinDir, .pinOut]
  | .seqTurnArm => [.tMark, .armed, .refLevel]
  | .seqTurnWait => [.tMark, .phase, .armed, .refLevel, .status, .pinDir, .pinOut]
  | .seqAckLow => [.tMark, .phase, .armed, .refLevel, .status, .pinDir, .pinOut]
  | .seqAckHigh => [.tMark, .phase, .armed, .refLevel, .status, .pinDir, .pinOut]
  | .seqBitLow => [.tMark, .phase, .half, .armed, .refLevel, .status, .pinDir, .pinOut]
  | .seqBitHigh => [.frame, .tMark, .phase, .half, .bitCount, .armed, .refLevel, .status, .pinDir, .pinOut]
  | .seqIdle => []
  | .seqDone => []
  | .seqFailed => []
  | .nop => []
  | .poll => []
  | .rsv2 => []
  | .rsv3 => []

/-- The registers an accepted `POLL` may write (R40, R214, R215). -/
def acceptWrites : List Register :=
  [.frame, .lastTrigger, .phase, .reqStep, .half, .bitCount, .armed, .haveLast, .status, .pinDir, .pinOut]

/-- The steps at which `pin_in` is consumed (R62). -/
def Regs.readsPin (r : Regs) : Bool :=
  match r.phase with
  | .idle => false
  | .requesting => r.reqStep == .reqTurn
  | .awaitingResponseLow => true
  | .awaitingResponseHigh => true
  | .readingBits => true
  | .done => false
  | .failed => false

/-- The steps that issue a `Configure` or `Write` other than the restore: those at which `io_err` is consumed
(R62, R67, R234). -/
def State.issuesFailable (s : State) : Bool :=
  match s.regs.phase with
  | .idle => (commandAnswer s).accept
  | .requesting =>
    match s.regs.reqStep with
    | .reqHigh => true
    | .reqLow => holdOver s.regs s.sample s.cfg.tStartLow
    | .reqRelease => holdOver s.regs s.sample s.cfg.tRelease
    | .reqTurn => false
  | .awaitingResponseLow => false
  | .awaitingResponseHigh => false
  | .readingBits => false
  | .done => (commandAnswer s).accept
  | .failed => (commandAnswer s).accept

/-- The instruction a decoder found, if any. -/
def Decoded.instr? : Decoded → Option Instr
  | .ok i => some i
  | .rejected _ => none

/-- One trace line (R104); `pin` is `none` where R62 says it is ignored, `command` where none is presented. -/
structure TraceLine where
  now : Time
  pin : Option Level
  command : Option Instr
  ioErr : Bool
  rsp : Rsp
  microOp : Option Instr
  actions : List Action
  changed : List Register
  deriving DecidableEq, Repr

/-- The trace line of the next step; `none` where the step does not go on, or is a reset, which R104 has no line for. -/
def traceLine (s : State) : Option TraceLine :=
  match step s with
  | .next t =>
    if s.sample.rst then none
    else
      some
        { now := s.sample.now
          pin := if s.regs.readsPin then some s.sample.pinIn else none
          command := Decoded.instr? (decodeCommand s.sample.commandWord)
          ioErr := s.sample.ioErr
          rsp := t.rsp
          microOp := Decoded.instr? (decodeStateCode s.regs.stateCode)
          actions := t.actions
          changed := changedRegisters s.regs t.regs }
  | .fault _ => none
  | .refused _ => none

end Sys2Proof.Machine
end

