-- ==== Sys2Proof/Safety.lean ====
section
/-! DEFINITION. The terms in which claims speak of runs: the invariants of 10_state.md R41, runs and their action history, the
arrows of 42_handshake_sequencer.md R160. The environment's assumptions are in Machine/Environment.lean. -/

namespace Sys2Proof.Machine

/-! ## The invariants of R41, clause by clause -/

/-- (a) -/
abbrev Regs.phaseIsState (r : Regs) : Prop := r.phase.code ≠ 7#3

/-- (b) -/
abbrev Regs.countBounded (r : Regs) : Prop := r.bitCount.toNat ≤ 40

/-- (c) -/
abbrev Regs.fullCountIsDone (r : Regs) : Prop :=
  r.bitCount.toNat = 40 → r.phase = .done ∧ (r.status = .valid ∨ r.status = .checksumMismatch)

/-- The phases in which the controller listens with an armed EdgeTimer from the first response edge on. -/
abbrev Regs.listening (r : Regs) : Prop :=
  r.phase = .awaitingResponseLow ∨ r.phase = .awaitingResponseHigh ∨ r.phase = .readingBits

/-- (d) -/
abbrev Regs.listeningIsArmedInput (r : Regs) : Prop :=
  r.listening → r.armed = true ∧ r.pinDir = .input ∧ r.pinOut = true

/-- (e) -/
abbrev Regs.refLevelFollowsPhase (r : Regs) : Prop :=
  (r.phase = .awaitingResponseLow → r.refLevel = false) ∧ (r.phase = .awaitingResponseHigh → r.refLevel = true) ∧
    (r.phase = .readingBits → r.refLevel = r.half)

/-- (f) -/
abbrev Regs.requestPinState (r : Regs) : Prop :=
  r.phase = .requesting →
    (r.reqStep ≠ .reqTurn → r.pinDir = .output) ∧ (r.reqStep = .reqTurn → r.pinDir = .input) ∧
      (r.pinOut = false ↔ r.reqStep = .reqLow)

/-- (g) -/
abbrev Regs.statusFollowsPhase (r : Regs) : Prop :=
  (r.status = .none ↔ (r.phase = .idle ∨ r.busy = true)) ∧
    (r.phase = .done → r.status = .valid ∨ r.status = .checksumMismatch) ∧
    (r.phase = .failed → r.status = .edgeTimeout ∨ r.status = .timingViolation ∨ r.status = .ioError)

/-- (h) -/
abbrev Regs.noPassIsIdle (r : Regs) : Prop := r.haveLast = false → r.phase = .idle

/-- (i) -/
abbrev Regs.restPinState (r : Regs) : Prop :=
  (r.phase = .idle ∨ r.phase = .failed → r.pinDir = .output ∧ r.pinOut = true) ∧
    (r.phase = .done → r.pinDir = .input ∧ r.pinOut = true)

/-- (j) -/
abbrev Regs.restNotArmed (r : Regs) : Prop :=
  r.phase = .idle ∨ r.phase = .done ∨ r.phase = .failed → r.armed = false

/-- (k) -/
abbrev Regs.validIsComplete (r : Regs) : Prop :=
  r.status = .valid → r.bitCount.toNat = 40 ∧ checksumOk r.frame = true

/-- All of R41. -/
abbrev Regs.r41 (r : Regs) : Prop :=
  r.phaseIsState ∧ r.countBounded ∧ r.fullCountIsDone ∧ r.listeningIsArmedInput ∧ r.refLevelFollowsPhase ∧
    r.requestPinState ∧ r.statusFollowsPhase ∧ r.noPassIsIdle ∧ r.restPinState ∧ r.restNotArmed ∧ r.validIsComplete

/-- Before the first bit the decoder's registers are as the accepted `POLL` left them (R169). -/
abbrev Regs.decoderClearBeforeBits (r : Regs) : Prop :=
  r.phase = .requesting ∨ r.phase = .awaitingResponseLow ∨ r.phase = .awaitingResponseHigh →
    r.half = false ∧ r.bitCount = 0 ∧ r.frame = 0

/-- While the start pulse is driven no wait is entered (R28). -/
abbrev Regs.startPulseNotArmed (r : Regs) : Prop :=
  r.phase = .requesting → r.reqStep ≠ .reqTurn → r.armed = false

/-- The frame holds no more than the bits counted, so no payload bit is ever shifted out (R194). -/
abbrev Regs.frameHoldsCountedBits (r : Regs) : Prop :=
  r.frame.toNat < 2 ^ r.bitCount.toNat

/-- R41 together with what makes it inductive. -/
abbrev Regs.inv (r : Regs) : Prop :=
  r.r41 ∧ r.decoderClearBeforeBits ∧ r.startPulseNotArmed ∧ r.frameHoldsCountedBits

/-! ## The states claims name -/

/-- `s` after an instant that answers `rsp`, leaves the registers `r` and issues `acts`: the sample is consumed, the
configuration stays. -/
abbrev afterInstant (s : State) (rsp : Rsp) (r : Regs) (acts : List Action) : State :=
  { s with regs := r, rsp := rsp, actions := acts, inputs := s.inputs.tail, instant := s.instant + 1 }

/-- The registers R236 leaves: the five it names written, every other one as it was. -/
abbrev failedRegs (code : Status) (r : Regs) : Regs :=
  { r with phase := .failed, status := code, armed := false, pinDir := .output, pinOut := true }

/-- The registers R214 leaves after a `POLL` accepted at `now`. -/
abbrev cycleStarted (now : Time) (r : Regs) : Regs :=
  { r with
    lastTrigger := now, haveLast := true, frame := 0, bitCount := 0, half := false, armed := false, status := .none
    pinDir := .output, pinOut := true, phase := .requesting, reqStep := .reqHigh }

/-- The registers R215 leaves after a `POLL` accepted at `now` with `io_err = 1`. -/
abbrev cycleRefusedByPort (now : Time) (r : Regs) : Regs :=
  { r with
    lastTrigger := now, haveLast := true, frame := 0, bitCount := 0, half := false, armed := false, status := .ioError
    pinDir := .output, pinOut := true, phase := .failed }

/-! ## Runs -/

/-- `n` steps of the machine, stopping at the first stop. -/
abbrev runSteps (n : Nat) (s : State) : Host.Outcome State Fault Refusal :=
  Host.Core.run Sys2Proof.core n s

/-- Every one of `n` steps goes on. -/
def safeRun (n : Nat) (s : State) : Prop :=
  ∃ t, runSteps n s = .next t

/-- The action lists of `n` steps, concatenated in step order (R66). -/
def history : Nat → State → List Action
  | 0, _ => []
  | n + 1, s =>
    match step s with
    | .next t => t.actions ++ history n t
    | .fault _ => []
    | .refused _ => []

/-- The arrows of the sequencer other than reset (R160); a phase may also stay. -/
def phaseArrow : Phase → Phase → Bool
  | .idle, p => p == .requesting || p == .failed
  | .done, p => p == .requesting || p == .failed
  | .failed, p => p == .requesting
  | .requesting, p => p == .awaitingResponseLow || p == .failed
  | .awaitingResponseLow, p => p == .awaitingResponseHigh || p == .failed
  | .awaitingResponseHigh, p => p == .readingBits || p == .failed
  | .readingBits, p => p == .done || p == .failed

end Sys2Proof.Machine
end

