-- ==== Sys2Proof/Certificates/Slice0/Obligations.lean ====
section
/-! DEFINITION. The statements for the provers. -/

open Sys2Proof Sys2Proof.Machine

/-! ## Encodings -/

/-- Decoding the word of an instruction gives the instruction (R91, R96). -/
def Obligations.EncodeThenDecodeGivesInstruction : Prop :=
  ∀ i : Instr, decode (encode i) = .ok i

/-- Words written out from R91 and R96, ignored bits set in some of them. -/
def Obligations.SpecWordsDecodeToTheirRows : Prop :=
  decodeCommand 0b101 = .ok .poll ∧ decodeCommand 0b110 = .ok .rsv2 ∧
    decodeStateCode 0b0001111 = .ok .seqIdle ∧ decodeStateCode 0b0010111 = .ok .seqReqLow ∧
    decodeStateCode 0b0011110 = .ok .seqTurnArm ∧ decodeStateCode 0b0011111 = .ok .seqTurnWait ∧
    decodeStateCode 0b1001101 = .ok .seqBitLow ∧ decodeStateCode 0b1001111 = .ok .seqBitHigh ∧
    decodeStateCode 0b1101100 = .ok .seqFailed

/-- R91: the eight command words. -/
def Obligations.CommandWordsAreR91 : Prop :=
  ∀ w : BitVec 3,
    (w.getLsbD 2 = false → decodeCommand w = .rejected .noCommand) ∧
      (w = 0b100 → decodeCommand w = .ok .nop) ∧ (w = 0b101 → decodeCommand w = .ok .poll) ∧
      (w = 0b110 → decodeCommand w = .ok .rsv2) ∧ (w = 0b111 → decodeCommand w = .ok .rsv3)

/-- R96: a micro-operation is selected exactly when `(sc & mask) == match`; the rows are disjoint and cover every `sc`
with `phase != 7`. -/
def Obligations.StateCodesAreR96 : Prop :=
  ∀ sc : BitVec 7,
    (decodeStateCode sc = .ok .seqIdle ↔ sc &&& 0b1110000 = 0b0000000) ∧
      (decodeStateCode sc = .ok .seqReqHigh ↔ sc &&& 0b1111100 = 0b0010000) ∧
      (decodeStateCode sc = .ok .seqReqLow ↔ sc &&& 0b1111100 = 0b0010100) ∧
      (decodeStateCode sc = .ok .seqReqRelease ↔ sc &&& 0b1111100 = 0b0011000) ∧
      (decodeStateCode sc = .ok .seqTurnArm ↔ sc &&& 0b1111101 = 0b0011100) ∧
      (decodeStateCode sc = .ok .seqTurnWait ↔ sc &&& 0b1111101 = 0b0011101) ∧
      (decodeStateCode sc = .ok .seqAckLow ↔ sc &&& 0b1110000 = 0b0100000) ∧
      (decodeStateCode sc = .ok .seqAckHigh ↔ sc &&& 0b1110000 = 0b0110000) ∧
      (decodeStateCode sc = .ok .seqBitLow ↔ sc &&& 0b1110010 = 0b1000000) ∧
      (decodeStateCode sc = .ok .seqBitHigh ↔ sc &&& 0b1110010 = 0b1000010) ∧
      (decodeStateCode sc = .ok .seqDone ↔ sc &&& 0b1110000 = 0b1010000) ∧
      (decodeStateCode sc = .ok .seqFailed ↔ sc &&& 0b1110000 = 0b1100000) ∧
      (decodeStateCode sc = .rejected .unreachablePhase ↔ sc &&& 0b1110000 = 0b1110000)

/-- The fields of the frame layout of R70 and the five bytes are the same data. -/
def Obligations.FrameFieldsRoundTrip : Prop :=
  (∀ hI hF tI tF c : Byte,
      Frame.hI (Frame.ofBytes hI hF tI tF c) = hI ∧ Frame.hF (Frame.ofBytes hI hF tI tF c) = hF ∧
        Frame.tI (Frame.ofBytes hI hF tI tF c) = tI ∧ Frame.tF (Frame.ofBytes hI hF tI tF c) = tF ∧
        Frame.c (Frame.ofBytes hI hF tI tF c) = c) ∧
    ∀ f : Frame, Frame.ofBytes f.hI f.hF f.tI f.tF f.c = f

/-! ## The step -/

/-- A step without reset, in a state that holds no unreachable code, is the meaning of the command presented, and where
none is presented of the micro-operation the state code selects. That one instruction stands for the instant is the
model's choice, log entry 6. -/
def Obligations.StepRunsTheDecodedInstruction : Prop :=
  ∀ (s : State) (i : Instr), s.sample.rst = false → s.regs.bitCount.toNat ≤ 40 →
    (decodeCommand s.sample.commandWord = .ok i → step s = exec i s) ∧
      (s.sample.cmdValid = false → decodeStateCode s.regs.stateCode = .ok i → step s = exec i s)

/-- The command's meaning and the selected micro-operation's meaning are the same step (R120, R124): the two ways the
model names an instant, log entry 6, agree. -/
def Obligations.CommandViewAgreesWithMicroOpView : Prop :=
  ∀ (s : State) (c m : Instr), decodeCommand s.sample.commandWord = .ok c →
    decodeStateCode s.regs.stateCode = .ok m → exec c s = exec m s

/-- The step is the consolidated listing of 40_step.md section 5. -/
def Obligations.StepMatchesConsolidatedListing : Prop :=
  ∀ s : State, s.sample.rst = true ∨ s.regs.bitCount.toNat ≤ 40 →
    step s =
      .next (afterInstant s (listingStep s.cfg s.regs s.sample).rsp (listingStep s.cfg s.regs s.sample).regs
        (listingStep s.cfg s.regs s.sample).actions)

/-- Every state without an unreachable code has a step, whatever the inputs (R128, which the spec derives from R120, R121
and R123; that a count above 40 is excluded is R101). -/
def Obligations.EveryLegalStateSteps : Prop :=
  ∀ s : State, s.regs.bitCount.toNat ≤ 40 → ∃ t, step s = .next t

/-- A state whose `bit_count` holds one of the codes 41 to 63 has no step (R101); reset still leads out of it (R125). That
the stop is the fault `unreachableCode` is the model's choice, log entry 5. -/
def Obligations.UnreachableCountHasNoStep : Prop :=
  ∀ s : State, 40 < s.regs.bitCount.toNat →
    (s.sample.rst = false → step s = .fault .unreachableCode) ∧ (s.sample.rst = true → ∃ t, step s = .next t)

/-- A step takes one sample instant and keeps the configuration (R7, R13). The input list and the counter are the model's
own fields, log entries 1 and 2. -/
def Obligations.StepTakesOneSampleInstant : Prop :=
  ∀ s t : State, step s = .next t → t.cfg = s.cfg ∧ t.inputs = s.inputs.tail ∧ t.instant = s.instant + 1

/-- R125: `rst = 1` loads every reset value whatever the state and the other inputs, with no answer and no action. -/
def Obligations.ResetStepLoadsEveryRegister : Prop :=
  ∀ s : State, s.sample.rst = true →
    step s =
      .next (afterInstant s .none
        { frame := 0, tMark := 0, lastTrigger := 0, phase := .idle, reqStep := .reqHigh, half := false, bitCount := 0
          armed := false, refLevel := false, haveLast := false, status := .none, pinDir := .output, pinOut := true } [])

/-- R39: the reset values of the thirteen registers. -/
def Obligations.ResetRegisterTable : Prop :=
  State.reset.regs =
    { frame := 0, tMark := 0, lastTrigger := 0, phase := .idle, reqStep := .reqHigh, half := false, bitCount := 0
      armed := false, refLevel := false, haveLast := false, status := .none, pinDir := .output, pinOut := true }

/-- After a reset step no report stands, the block is not busy, and a `POLL` passes the gate at any time (R260,
and R271, which the spec derives from R39 and R211). -/
def Obligations.ResetLeavesNoReportAndAnOpenGate : Prop :=
  ∀ s t : State, s.sample.rst = true → step s = .next t →
    t.regs.rptValid = false ∧ t.regs.rptStatus = 0 ∧ t.regs.busy = false ∧
      ∀ x : Input, x.rst = false → x.cmdValid = true → x.cmd = 1 →
        ∃ u, step (t.withSample x) = .next u ∧ u.rsp = .accepted

/-! ## Commands -/

/-- R122 and R123: the answer, in the rules' priority order. -/
def Obligations.CommandAnswersInPriorityOrder : Prop :=
  ∀ s : State,
    (s.sample.cmdValid = false → commandAnswer s = { rsp := .none, accept := false }) ∧
      (s.sample.cmdValid = true →
        (s.sample.cmd = 0 → commandAnswer s = { rsp := .none, accept := false }) ∧
          (s.sample.cmd = 2 ∨ s.sample.cmd = 3 → commandAnswer s = { rsp := .illegal, accept := false }) ∧
          (s.sample.cmd = 1 →
            (s.regs.busy = true → commandAnswer s = { rsp := .busy, accept := false }) ∧
              (s.regs.busy = false → gate s.cfg s.sample.now s.regs = true →
                commandAnswer s = { rsp := .accepted, accept := true }) ∧
              (s.regs.busy = false → gate s.cfg s.sample.now s.regs = false →
                commandAnswer s = { rsp := .notReady, accept := false })))

/-- R211: the gate, and its boundary at exactly one second. -/
def Obligations.GatePassesFromOneSecondOn : Prop :=
  (∀ (cfg : Config) (now : Time) (r : Regs),
      gate cfg now r = true ↔ r.haveLast = false ∨ cfg.tCooldown ≤ dur now r.lastTrigger) ∧
    ∀ (cfg : Config) (r : Regs), cfg.tCooldown = 1000000000 → r.haveLast = true → r.lastTrigger = 0 →
      gate cfg 999999999 r = false ∧ gate cfg 1000000000 r = true

/-- A command presented while a cycle runs changes the answer and nothing else (R124). -/
def Obligations.MidCycleCommandChangesOnlyTheAnswer : Prop :=
  ∀ (s : State) (v : Bool) (c : BitVec 2), s.regs.busy = true → s.regs.bitCount.toNat ≤ 40 →
    ∃ t u, step s = .next t ∧
      step (s.withSample { s.sample with cmdValid := v, cmd := c }) = .next u ∧
      u = { t with rsp := u.rsp }

/-- `NOP` (R216): the selected micro-operation runs as if no command had been presented, and the answer is `NONE`. -/
def Obligations.NopActsAsNoCommand : Prop :=
  ∀ (s : State) (m : Instr), decodeStateCode s.regs.stateCode = .ok m →
    ∃ t, exec .nop s = .next t ∧ t.rsp = .none ∧ exec m (s.withSample s.sample.withoutCommand) = .next t

/-- `RSV2` and `RSV3` (R100): the selected micro-operation runs as if no command had been presented, and the answer is
`ILLEGAL`. -/
def Obligations.ReservedCommandsAnswerIllegal : Prop :=
  ∀ (s : State) (m : Instr), decodeStateCode s.regs.stateCode = .ok m →
    ∃ t, exec m (s.withSample s.sample.withoutCommand) = .next t ∧
      exec .rsv2 s = .next { t with rsp := .illegal } ∧ exec .rsv3 s = .next { t with rsp := .illegal }

/-- `POLL` while busy (R217): the running micro-operation executes normally and the answer is `BUSY`. -/
def Obligations.PollWhileBusyAnswersBusy : Prop :=
  ∀ (s : State) (m : Instr), s.regs.busy = true → decodeStateCode s.regs.stateCode = .ok m →
    ∃ t, exec m (s.withSample s.sample.withoutCommand) = .next t ∧ exec .poll s = .next { t with rsp := .busy } ∧
      t.regs.lastTrigger = s.regs.lastTrigger ∧ t.regs.haveLast = s.regs.haveLast

/-- `POLL` before the cool-down is over (R218): no register is written and no action issued. -/
def Obligations.PollNotReadyChangesNothing : Prop :=
  ∀ s : State, s.regs.busy = false → gate s.cfg s.sample.now s.regs = false →
    exec .poll s = .next (afterInstant s .notReady s.regs [])

/-- An accepted `POLL` (R214 with the gate-pass update of R212). -/
def Obligations.AcceptedPollStartsCycle : Prop :=
  ∀ s : State, s.regs.busy = false → gate s.cfg s.sample.now s.regs = true → s.sample.ioErr = false →
    exec .poll s = .next (afterInstant s .accepted (cycleStarted s.sample.now s.regs) [.configure .output, .write true])

/-- An accepted `POLL` with `io_err = 1` (R215). -/
def Obligations.AcceptedPollWithIoErrorFails : Prop :=
  ∀ s : State, s.regs.busy = false → gate s.cfg s.sample.now s.regs = true → s.sample.ioErr = true →
    exec .poll s =
      .next (afterInstant s .accepted (cycleRefusedByPort s.sample.now s.regs)
        [.configure .output, .write true, .configure .output, .write true])

/-- R212: the gate-pass registers move on an accepted `POLL` and only then. -/
def Obligations.LastTriggerMovesExactlyOnAcceptance : Prop :=
  ∀ s t : State, s.sample.rst = false → step s = .next t →
    (t.rsp = .accepted → t.regs.lastTrigger = s.sample.now ∧ t.regs.haveLast = true) ∧
      (t.rsp ≠ .accepted → t.regs.lastTrigger = s.regs.lastTrigger ∧ t.regs.haveLast = s.regs.haveLast)

/-- The spec's inference R219, for a pair with no accepted `POLL` and no reset between: the two are at least `T_COOLDOWN`
apart (log entry 14). -/
def Obligations.AcceptedPollsAreCooldownApart : Prop :=
  ∀ (s t u v : State) (n : Nat), step s = .next t → t.rsp = .accepted →
    (∀ k < n, ∃ w w', runSteps k t = .next w ∧ w.sample.rst = false ∧ step w = .next w' ∧ w'.rsp ≠ .accepted) →
    runSteps n t = .next u → step u = .next v → v.rsp = .accepted →
    s.cfg.tCooldown ≤ dur u.sample.now s.sample.now

/-! ## The HandshakeSequencer -/

/-- `SEQ.IDLE`, `SEQ.DONE`, `SEQ.FAILED` (R161, R170, R171): nothing without `accept`, the start of a cycle with it. -/
def Obligations.RestingMicroOpsWaitForAcceptedPoll : Prop :=
  ∀ (s : State) (m : Instr), m = .seqIdle ∨ m = .seqDone ∨ m = .seqFailed →
    (s.regs.phase = .idle → decodeStateCode s.regs.stateCode = .ok .seqIdle) ∧
      (s.regs.phase = .done → decodeStateCode s.regs.stateCode = .ok .seqDone) ∧
      (s.regs.phase = .failed → decodeStateCode s.regs.stateCode = .ok .seqFailed) ∧
      ((commandAnswer s).accept = false → exec m s = .next (afterInstant s (commandAnswer s).rsp s.regs [])) ∧
      ((commandAnswer s).accept = true → s.sample.ioErr = false →
        exec m s =
          .next (afterInstant s .accepted (cycleStarted s.sample.now s.regs) [.configure .output, .write true])) ∧
      ((commandAnswer s).accept = true → s.sample.ioErr = true →
        exec m s =
          .next (afterInstant s .accepted (cycleRefusedByPort s.sample.now s.regs)
            [.configure .output, .write true, .configure .output, .write true]))

/-- `SEQ.REQ_HIGH` (R162). -/
def Obligations.ReqHighBeginsLowPulse : Prop :=
  ∀ s : State,
    (s.regs.phase = .requesting → s.regs.reqStep = .reqHigh →
      decodeStateCode s.regs.stateCode = .ok .seqReqHigh) ∧
      (s.sample.ioErr = false →
        exec .seqReqHigh s =
          .next (afterInstant s (commandAnswer s).rsp
            { s.regs with pinOut := false, tMark := s.sample.now, reqStep := .reqLow } [.write false])) ∧
      (s.sample.ioErr = true →
        exec .seqReqHigh s =
          .next (afterInstant s (commandAnswer s).rsp (failedRegs .ioError s.regs)
            [.write false, .configure .output, .write true]))

/-- `SEQ.REQ_LOW` (R163). -/
def Obligations.ReqLowHoldsThenReleases : Prop :=
  ∀ s : State,
    (s.regs.phase = .requesting → s.regs.reqStep = .reqLow → decodeStateCode s.regs.stateCode = .ok .seqReqLow) ∧
      (dur s.sample.now s.regs.tMark < s.cfg.tStartLow →
        exec .seqReqLow s = .next (afterInstant s (commandAnswer s).rsp s.regs [])) ∧
      (s.cfg.tStartLow ≤ dur s.sample.now s.regs.tMark → s.sample.ioErr = false →
        exec .seqReqLow s =
          .next (afterInstant s (commandAnswer s).rsp
            { s.regs with pinOut := true, tMark := s.sample.now, reqStep := .reqRelease } [.write true])) ∧
      (s.cfg.tStartLow ≤ dur s.sample.now s.regs.tMark → s.sample.ioErr = true →
        exec .seqReqLow s =
          .next (afterInstant s (commandAnswer s).rsp (failedRegs .ioError s.regs)
            [.write true, .configure .output, .write true]))

/-- `SEQ.REQ_RELEASE` (R164). -/
def Obligations.ReqReleaseHoldsThenListens : Prop :=
  ∀ s : State,
    (s.regs.phase = .requesting → s.regs.reqStep = .reqRelease →
      decodeStateCode s.regs.stateCode = .ok .seqReqRelease) ∧
      (dur s.sample.now s.regs.tMark < s.cfg.tRelease →
        exec .seqReqRelease s = .next (afterInstant s (commandAnswer s).rsp s.regs [])) ∧
      (s.cfg.tRelease ≤ dur s.sample.now s.regs.tMark → s.sample.ioErr = false →
        exec .seqReqRelease s =
          .next (afterInstant s (commandAnswer s).rsp
            { s.regs with pinDir := .input, armed := false, reqStep := .reqTurn } [.configure .input])) ∧
      (s.cfg.tRelease ≤ dur s.sample.now s.regs.tMark → s.sample.ioErr = true →
        exec .seqReqRelease s =
          .next (afterInstant s (commandAnswer s).rsp (failedRegs .ioError s.regs)
            [.configure .input, .configure .output, .write true]))

/-- `SEQ.TURN_ARM` (R165). -/
def Obligations.TurnArmTakesTheEntrySample : Prop :=
  ∀ s : State,
    (s.regs.phase = .requesting → s.regs.reqStep = .reqTurn → s.regs.armed = false →
      decodeStateCode s.regs.stateCode = .ok .seqTurnArm) ∧
      exec .seqTurnArm s =
        .next (afterInstant s (commandAnswer s).rsp
          { s.regs with refLevel := s.sample.pinIn, tMark := s.sample.now, armed := true } [.read])

/-- `SEQ.TURN_WAIT` (R167). -/
def Obligations.TurnWaitTimesTheFallingEdge : Prop :=
  ∀ s : State,
    (s.regs.phase = .requesting → s.regs.reqStep = .reqTurn → s.regs.armed = true →
      decodeStateCode s.regs.stateCode = .ok .seqTurnWait) ∧
      (s.sample.pinIn = s.regs.refLevel → dur s.sample.now s.regs.tMark ≤ s.cfg.tTurnaround →
        exec .seqTurnWait s = .next (afterInstant s (commandAnswer s).rsp s.regs [.read])) ∧
      (s.sample.pinIn = s.regs.refLevel → s.cfg.tTurnaround < dur s.sample.now s.regs.tMark →
        exec .seqTurnWait s =
          .next (afterInstant s (commandAnswer s).rsp (failedRegs .edgeTimeout s.regs)
            [.read, .configure .output, .write true])) ∧
      (s.sample.pinIn ≠ s.regs.refLevel →
        s.sample.pinIn = false ∧ dur s.sample.now s.regs.tMark ≤ s.cfg.tTurnaround →
        exec .seqTurnWait s =
          .next (afterInstant s (commandAnswer s).rsp
            { s.regs with phase := .awaitingResponseLow, refLevel := false, tMark := s.sample.now } [.read])) ∧
      (s.sample.pinIn ≠ s.regs.refLevel →
        ¬(s.sample.pinIn = false ∧ dur s.sample.now s.regs.tMark ≤ s.cfg.tTurnaround) →
        exec .seqTurnWait s =
          .next (afterInstant s (commandAnswer s).rsp (failedRegs .timingViolation s.regs)
            [.read, .configure .output, .write true]))

/-- `SEQ.ACK_LOW` (R168). -/
def Obligations.AckLowTimesTheLowPulse : Prop :=
  ∀ s : State,
    (s.regs.phase = .awaitingResponseLow → decodeStateCode s.regs.stateCode = .ok .seqAckLow) ∧
      (s.sample.pinIn = s.regs.refLevel → dur s.sample.now s.regs.tMark ≤ s.cfg.tEdgeTimeout →
        exec .seqAckLow s = .next (afterInstant s (commandAnswer s).rsp s.regs [.read])) ∧
      (s.sample.pinIn = s.regs.refLevel → s.cfg.tEdgeTimeout < dur s.sample.now s.regs.tMark →
        exec .seqAckLow s =
          .next (afterInstant s (commandAnswer s).rsp (failedRegs .edgeTimeout s.regs)
            [.read, .configure .output, .write true])) ∧
      (s.sample.pinIn ≠ s.regs.refLevel →
        s.cfg.tAckMin ≤ dur s.sample.now s.regs.tMark ∧ dur s.sample.now s.regs.tMark ≤ s.cfg.tAckMax →
        exec .seqAckLow s =
          .next (afterInstant s (commandAnswer s).rsp
            { s.regs with phase := .awaitingResponseHigh, refLevel := s.sample.pinIn, tMark := s.sample.now }
            [.read])) ∧
      (s.sample.pinIn ≠ s.regs.refLevel →
        ¬(s.cfg.tAckMin ≤ dur s.sample.now s.regs.tMark ∧ dur s.sample.now s.regs.tMark ≤ s.cfg.tAckMax) →
        exec .seqAckLow s =
          .next (afterInstant s (commandAnswer s).rsp (failedRegs .timingViolation s.regs)
            [.read, .configure .output, .write true]))

/-- `SEQ.ACK_HIGH` (R169). -/
def Obligations.AckHighTimesTheHighPulse : Prop :=
  ∀ s : State,
    (s.regs.phase = .awaitingResponseHigh → decodeStateCode s.regs.stateCode = .ok .seqAckHigh) ∧
      (s.sample.pinIn = s.regs.refLevel → dur s.sample.now s.regs.tMark ≤ s.cfg.tEdgeTimeout →
        exec .seqAckHigh s = .next (afterInstant s (commandAnswer s).rsp s.regs [.read])) ∧
      (s.sample.pinIn = s.regs.refLevel → s.cfg.tEdgeTimeout < dur s.sample.now s.regs.tMark →
        exec .seqAckHigh s =
          .next (afterInstant s (commandAnswer s).rsp (failedRegs .edgeTimeout s.regs)
            [.read, .configure .output, .write true])) ∧
      (s.sample.pinIn ≠ s.regs.refLevel →
        s.cfg.tAckMin ≤ dur s.sample.now s.regs.tMark ∧ dur s.sample.now s.regs.tMark ≤ s.cfg.tAckMax →
        exec .seqAckHigh s =
          .next (afterInstant s (commandAnswer s).rsp
            { s.regs with phase := .readingBits, refLevel := s.sample.pinIn, tMark := s.sample.now } [.read])) ∧
      (s.sample.pinIn ≠ s.regs.refLevel →
        ¬(s.cfg.tAckMin ≤ dur s.sample.now s.regs.tMark ∧ dur s.sample.now s.regs.tMark ≤ s.cfg.tAckMax) →
        exec .seqAckHigh s =
          .next (afterInstant s (commandAnswer s).rsp (failedRegs .timingViolation s.regs)
            [.read, .configure .output, .write true]))

/-- The start sequence seen from the wire (R166, the spec's inference from R162 to R165 and R214): step 0 is the
accepted `POLL` at `s`, step `k + 1` takes the sample `xs k`; `c` and `e` are the first samples at which the two holds are over. -/
def Obligations.StartPulseSeenFromTheWire : Prop :=
  ∀ (s t : State) (xs : Nat → Input) (c e : Nat), step s = .next t → t.rsp = .accepted → s.sample.ioErr = false →
    0 < c → c < e →
    (∀ k ≤ e + 1, t.inputs[k]? = some (xs k) ∧ (xs k).rst = false ∧ (xs k).ioErr = false) →
    (∀ k, 0 < k → k < c → dur (xs k).now (xs 0).now < s.cfg.tStartLow) →
    s.cfg.tStartLow ≤ dur (xs c).now (xs 0).now →
    (∀ k, c < k → k < e → dur (xs k).now (xs c).now < s.cfg.tRelease) →
    s.cfg.tRelease ≤ dur (xs e).now (xs c).now →
    history 1 s = [.configure .output, .write true] ∧
      history 2 s = [.configure .output, .write true, .write false] ∧
      history (c + 1) s = [.configure .output, .write true, .write false] ∧
      history (c + 2) s = [.configure .output, .write true, .write false, .write true] ∧
      history (e + 1) s = [.configure .output, .write true, .write false, .write true] ∧
      history (e + 2) s = [.configure .output, .write true, .write false, .write true, .configure .input] ∧
      history (e + 3) s = [.configure .output, .write true, .write false, .write true, .configure .input, .read]

/-! ## The EdgeTimer -/

/-- R143: the three outcomes, the level test first and the deadline strict; R11: elapsed time is modulo 2^64. -/
def Obligations.EdgeStepTestsLevelThenDeadline : Prop :=
  ∀ (r : Regs) (x : Input) (timeout : Time),
    (dur x.now r.tMark).toNat = (x.now.toNat + 2 ^ 64 - r.tMark.toNat) % 2 ^ 64 ∧
      (x.pinIn ≠ r.refLevel → edgeStep r x timeout = .edge { level := x.pinIn, duration := dur x.now r.tMark }) ∧
      (x.pinIn = r.refLevel → timeout < dur x.now r.tMark → edgeStep r x timeout = .timeout) ∧
      (x.pinIn = r.refLevel → dur x.now r.tMark ≤ timeout → edgeStep r x timeout = .pending)

/-- R144, the spec's inference from R142 and R143: `wait_for_edge` entered at `x` returns at the first
sample that shows another level or is past the deadline. -/
def Obligations.WaitForEdgeReturnsAtFirstDecisiveSample : Prop :=
  ∀ (timeout : Time) (r : Regs) (x : Input) (xs : List Input) (out : EdgeOutcome),
    waitForEdge timeout r (x :: xs) = some out ↔
      ∃ (j : Nat) (y : Input), xs[j]? = some y ∧
        (∀ (k : Nat) (z : Input), k < j → xs[k]? = some z → z.pinIn = x.pinIn ∧ dur z.now x.now ≤ timeout) ∧
        ((y.pinIn ≠ x.pinIn ∧ out = .edge { level := y.pinIn, duration := dur y.now x.now }) ∨
          (y.pinIn = x.pinIn ∧ timeout < dur y.now x.now ∧ out = .timeout))

/-! ## The BitDecoder -/

/-- `SEQ.BIT_LOW` (R191): any low half that ends with an edge is accepted. -/
def Obligations.BitLowWaitsOutTheLowHalf : Prop :=
  ∀ s : State,
    (s.regs.phase = .readingBits → s.regs.half = false → decodeStateCode s.regs.stateCode = .ok .seqBitLow) ∧
      (s.sample.pinIn = s.regs.refLevel → dur s.sample.now s.regs.tMark ≤ s.cfg.tEdgeTimeout →
        exec .seqBitLow s = .next (afterInstant s (commandAnswer s).rsp s.regs [.read])) ∧
      (s.sample.pinIn ≠ s.regs.refLevel →
        exec .seqBitLow s =
          .next (afterInstant s (commandAnswer s).rsp
            { s.regs with half := true, refLevel := s.sample.pinIn, tMark := s.sample.now } [.read]))

/-- `SEQ.BIT_HIGH` (R194, R195, R197): the bit is shifted in at bit 0, the 40th ends the cycle in the same step. The frame
is stated as a number: twice the old one plus the bit, modulo 2^40. -/
def Obligations.BitHighShiftsInOneBit : Prop :=
  ∀ s : State,
    (s.regs.phase = .readingBits → s.regs.half = true → decodeStateCode s.regs.stateCode = .ok .seqBitHigh) ∧
      (s.sample.pinIn = s.regs.refLevel → dur s.sample.now s.regs.tMark ≤ s.cfg.tEdgeTimeout →
        exec .seqBitHigh s = .next (afterInstant s (commandAnswer s).rsp s.regs [.read])) ∧
      (s.sample.pinIn ≠ s.regs.refLevel →
        ∃ f : Frame,
          f.toNat =
            (2 * s.regs.frame.toNat + (if s.cfg.tBitThreshold < dur s.sample.now s.regs.tMark then 1 else 0)) % 2 ^ 40 ∧
          (s.regs.bitCount ≠ 39 →
            exec .seqBitHigh s =
              .next (afterInstant s (commandAnswer s).rsp
                { s.regs with
                  frame := f, bitCount := s.regs.bitCount + 1, half := false, refLevel := s.sample.pinIn
                  tMark := s.sample.now } [.read])) ∧
          (s.regs.bitCount = 39 →
            exec .seqBitHigh s =
              .next (afterInstant s (commandAnswer s).rsp
                { s.regs with
                  frame := f, bitCount := 40, half := false, refLevel := s.sample.pinIn, tMark := s.sample.now
                  phase := .done, armed := false, status := if checksumOk f then .valid else .checksumMismatch }
                [.read])))

/-- `bit_timeout` (R198) in either half, under either policy: a partial frame is `Invalid` by fiat. -/
def Obligations.BitTimeoutFollowsPolicy : Prop :=
  ∀ (s : State) (m : Instr), m = .seqBitLow ∨ m = .seqBitHigh → s.sample.pinIn = s.regs.refLevel →
    s.cfg.tEdgeTimeout < dur s.sample.now s.regs.tMark →
    (s.cfg.bitTimeoutPolicy = .decoderInvalid →
      exec m s =
        .next (afterInstant s (commandAnswer s).rsp
          { s.regs with phase := .done, status := .checksumMismatch, armed := false } [.read])) ∧
      (s.cfg.bitTimeoutPolicy = .sequencerAbort →
        exec m s =
          .next (afterInstant s (commandAnswer s).rsp (failedRegs .edgeTimeout s.regs)
            [.read, .configure .output, .write true]))

/-- R193: the single threshold, and its boundary under the documented value. -/
def Obligations.BitValueIsTheThresholdTest : Prop :=
  (∀ (cfg : Config) (d : Time), bitValue cfg d = true ↔ cfg.tBitThreshold < d) ∧
    ∀ cfg : Config, cfg.tBitThreshold = 35000 →
      bitValue cfg 0 = false ∧ bitValue cfg 35000 = false ∧ bitValue cfg 35001 = true ∧
        bitValue cfg (BitVec.allOnes 64) = true

/-- R196: the checksum byte is the sum of the four data bytes modulo 256, all read off the frame as a number. -/
def Obligations.ChecksumIsTheByteSumModulo256 : Prop :=
  ∀ f : Frame,
    checksumOk f = true ↔
      f.toNat % 256 =
        (f.toNat / 2 ^ 32 % 256 + f.toNat / 2 ^ 24 % 256 + f.toNat / 2 ^ 16 % 256 + f.toNat / 2 ^ 8 % 256) % 256

/-- Forty bit-periods, one sample at each edge, deliver the payload most significant bit first and end in `Done` with the
checksum's verdict (R69, R193 to R197). The timestamps are arbitrary; `xs` lists the samples. -/
def Obligations.FortyBitPeriodsDeliverThePayload : Prop :=
  ∀ (s : State) (xs : Nat → Input), s.regs.phase = .readingBits → s.regs.half = false → s.regs.refLevel = false →
    s.regs.bitCount = 0 →
    (∀ k < 80, s.inputs[k]? = some (xs k) ∧ (xs k).rst = false ∧ (xs k).pinIn = decide (k % 2 = 0)) →
    ∃ t, runSteps 80 s = .next t ∧ t.regs.phase = .done ∧ t.regs.bitCount = 40 ∧ t.regs.armed = false ∧
      (∀ k < 40, t.regs.frame.getMsbD k = decide (s.cfg.tBitThreshold < dur (xs (2 * k + 1)).now (xs (2 * k)).now)) ∧
      t.regs.status = if checksumOk t.regs.frame then .valid else .checksumMismatch

/-! ## Failures -/

/-- R236: the step that fails a running cycle writes the five registers of the rule and no other, and its actions end with
the restore. -/
def Obligations.FailKeepsEveryOtherRegister : Prop :=
  ∀ s t : State, s.sample.rst = false → s.regs.busy = true → step s = .next t → t.regs.phase = .failed →
    t.regs = failedRegs t.regs.status s.regs ∧
      (t.regs.status = .edgeTimeout ∨ t.regs.status = .timingViolation ∨ t.regs.status = .ioError) ∧
      ∃ issued, t.actions = issued ++ [.configure .output, .write true]

/-- R231: which step of a running cycle ends it with `EdgeTimeout`. -/
def Obligations.EdgeTimeoutCauses : Prop :=
  ∀ s t : State, s.sample.rst = false → s.regs.busy = true → step s = .next t →
    (t.regs.phase = .failed ∧ t.regs.status = .edgeTimeout ↔
      (s.regs.phase = .requesting ∧ s.regs.reqStep = .reqTurn ∧ s.regs.armed = true ∧
          s.sample.pinIn = s.regs.refLevel ∧ s.cfg.tTurnaround < dur s.sample.now s.regs.tMark) ∨
        ((s.regs.phase = .awaitingResponseLow ∨ s.regs.phase = .awaitingResponseHigh ∨
              s.regs.phase = .readingBits ∧ s.cfg.bitTimeoutPolicy = .sequencerAbort) ∧
          s.sample.pinIn = s.regs.refLevel ∧ s.cfg.tEdgeTimeout < dur s.sample.now s.regs.tMark))

/-- R232: which step of a running cycle ends it with `TimingViolation`. -/
def Obligations.TimingViolationCauses : Prop :=
  ∀ s t : State, s.sample.rst = false → s.regs.busy = true → step s = .next t →
    (t.regs.phase = .failed ∧ t.regs.status = .timingViolation ↔
      (s.regs.phase = .requesting ∧ s.regs.reqStep = .reqTurn ∧ s.regs.armed = true ∧
          s.sample.pinIn ≠ s.regs.refLevel ∧
          (s.sample.pinIn = true ∨ s.cfg.tTurnaround < dur s.sample.now s.regs.tMark)) ∨
        ((s.regs.phase = .awaitingResponseLow ∨ s.regs.phase = .awaitingResponseHigh) ∧
          s.sample.pinIn ≠ s.regs.refLevel ∧
          (dur s.sample.now s.regs.tMark < s.cfg.tAckMin ∨ s.cfg.tAckMax < dur s.sample.now s.regs.tMark)))

/-- R233: which step of a running cycle ends it with `ChecksumMismatch`, what the report then shows, and that the pin is
not restored. -/
def Obligations.ChecksumMismatchCauses : Prop :=
  ∀ s t : State, s.sample.rst = false → s.regs.busy = true → step s = .next t →
    (t.regs.phase = .done ∧ t.regs.status = .checksumMismatch ↔
      s.regs.phase = .readingBits ∧
        ((s.sample.pinIn = s.regs.refLevel ∧ s.cfg.tEdgeTimeout < dur s.sample.now s.regs.tMark ∧
            s.cfg.bitTimeoutPolicy = .decoderInvalid) ∨
          (s.sample.pinIn ≠ s.regs.refLevel ∧ s.regs.half = true ∧ s.regs.bitCount = 39 ∧
            checksumOk t.regs.frame = false))) ∧
      (t.regs.phase = .done → t.regs.status = .checksumMismatch →
        t.regs.rptHumidity = 0 ∧ t.regs.rptTemperature = 0 ∧ t.regs.pinDir = s.regs.pinDir ∧
          t.regs.pinOut = s.regs.pinOut ∧ t.actions = [.read])

/-- R234, R67: `io_err = 1` at a step that issues a failable action ends the cycle with `IoError`, and at every other step
`io_err` is ignored. -/
def Obligations.IoErrorOnlyAtFailableActions : Prop :=
  ∀ s : State, s.sample.rst = false → s.regs.bitCount.toNat ≤ 40 →
    (s.issuesFailable = true → s.sample.ioErr = true →
      ∃ t, step s = .next t ∧ t.regs.phase = .failed ∧ t.regs.status = .ioError) ∧
      (s.issuesFailable = false → ∀ e : Bool, step (s.withSample { s.sample with ioErr := e }) = step s)

/-! ## The whole machine -/

/-- R160: no change of `phase` outside the arrows, and no arrow out of a resting phase without an accepted `POLL`. -/
def Obligations.PhaseChangesOnlyAlongArrows : Prop :=
  ∀ s t : State, s.sample.rst = false → step s = .next t → t.regs.phase ≠ s.regs.phase →
    phaseArrow s.regs.phase t.regs.phase = true ∧ (s.regs.busy = false → t.rsp = .accepted)

/-- R40, the spec's inference from the rules it names: a step changes only registers the access summary lets its
micro-operation, or an accepted `POLL`, write. -/
def Obligations.RegistersChangeOnlyByTheirWriters : Prop :=
  ∀ (s t : State) (m : Instr), s.sample.rst = false → step s = .next t → decodeStateCode s.regs.stateCode = .ok m →
    ∀ g ∈ changedRegisters s.regs t.regs, g ∈ if t.rsp = .accepted then acceptWrites else busyWrites m

/-- R33, R66, per step, log entry 12: without reset the logical pin registers hold what the last `Configure` and `Write` asked for. -/
def Obligations.PinRegistersFollowTheActions : Prop :=
  ∀ s t : State, s.sample.rst = false → step s = .next t →
    t.regs.pinDir = lastDirection s.regs.pinDir t.actions ∧ t.regs.pinOut = lastWritten s.regs.pinOut t.actions

/-- R62: `pin_in` influences nothing at a step that does not read it. -/
def Obligations.PinInputIgnoredUnlessRead : Prop :=
  ∀ (s : State) (b : Level), s.regs.readsPin = false →
    step (s.withSample { s.sample with pinIn := b }) = step s

/-- R62: `now` influences nothing in `Idle`, `Done` and `Failed` when no `POLL` is presented. -/
def Obligations.ClockIgnoredAtRestWithoutPoll : Prop :=
  ∀ (s : State) (n : Time), s.regs.busy = false → decodeCommand s.sample.commandWord ≠ .ok .poll →
    step (s.withSample { s.sample with now := n }) = step s

/-- R129, the spec's inference from R120, R124, R170 and R171: the report of a finished cycle stands until the next accepted
`POLL` or reset. -/
def Obligations.ReportStandsUntilAcceptedPoll : Prop :=
  ∀ s : State, s.regs.phase = .done ∨ s.regs.phase = .failed → s.sample.rst = false → s.regs.bitCount.toNat ≤ 40 →
    (commandAnswer s).accept = false →
    step s = .next (afterInstant s (commandAnswer s).rsp s.regs [])

/-- R37: the outputs that are functions of the state, and the report word of R90. `pin_dir` and `pin_out` are the
registers themselves. -/
def Obligations.OutputsAreR37 : Prop :=
  ∀ s : State,
    (s.regs.busy = true ↔ s.regs.phase = .requesting ∨ s.regs.phase = .awaitingResponseLow ∨
      s.regs.phase = .awaitingResponseHigh ∨ s.regs.phase = .readingBits) ∧
      s.regs.phaseO = s.regs.phase.code ∧
      (s.regs.rptValid = true ↔ s.regs.phase = .done ∨ s.regs.phase = .failed) ∧
      s.regs.rptStatus = s.regs.status.code ∧
      (s.regs.status = .valid →
        s.regs.rptHumidity.toNat = s.regs.frame.toNat / 2 ^ 32 ∧
          s.regs.rptTemperature.toNat = s.regs.frame.toNat / 2 ^ 16 % 256) ∧
      (s.regs.status ≠ .valid → s.regs.rptHumidity = 0 ∧ s.regs.rptTemperature = 0) ∧
      s.pinSel = s.cfg.pin ∧
      s.regs.reportWord.toNat =
        2 ^ 19 * s.regs.rptValid.toNat + 2 ^ 16 * s.regs.rptStatus.toNat + 2 ^ 8 * s.regs.rptHumidity.toNat +
          s.regs.rptTemperature.toNat

/-- R41, the spec's inference, strengthened by three clauses of the model's own to be inductive, is kept by every step from
every state that meets it. -/
def Obligations.EveryStepKeepsTheInvariant : Prop :=
  ∀ s t : State, s.regs.inv → step s = .next t → t.regs.inv

/-- R41 and the three clauses added to it hold after reset. -/
def Obligations.ResetMeetsTheInvariant : Prop :=
  State.reset.regs.inv

/-- R41, the spec's inference: in every state reached from reset, under every configuration and every sequence of inputs. No run from there
stops. -/
def Obligations.EveryReachableStateMeetsR41 : Prop :=
  ∀ (cfg : Config) (xs : List Input) (n : Nat),
    ∃ t, runSteps n { State.reset with cfg := cfg, inputs := xs } = .next t ∧ t.regs.r41

/-- R283, the spec's inference from the micro-operation rules: from the accepted `POLL` at `s` to the step that finds the block busy for the last time, no more than the bound
elapses when no sample gap exceeds `gap`. -/
def Obligations.CycleEndsWithinItsBound : Prop :=
  ∀ (s t : State) (gap n : Nat) (x : Input), step s = .next t → t.rsp = .accepted →
    s.cfg.longestCycle gap < 2 ^ 64 → gapsAtMost gap s.sample.now t.inputs →
    (∀ k ≤ n, ∃ w, runSteps k t = .next w ∧ w.regs.busy = true) → t.inputs[n]? = some x →
    (dur x.now s.sample.now).toNat ≤ s.cfg.longestCycle gap

/-! ## The block in its environment -/

/-- R74, R261, with the premises R270(d) and (e): a reset leaves the port as it is, also in the middle of a cycle; and where
no step resets and no action fails, the port is what the registers `pin_dir` and `pin_out` say (R33), so that the wire carries
`pin_out` while the pin is an output and `pin_in` is the wire while it is an input. That the premises leave the port no
latency and the wire no contention is the model's choice, log entries 20 and 21. -/
def Obligations.PortFollowsTheActions : Prop :=
  ∀ tr : Nat → Instant, isTrace tr →
    (pinExclusive tr → ∀ i, (tr i).sample.rst = true → (tr (i + 1)).port = (tr i).port) ∧
      (gpioPortCorrect tr → neverReset tr → (∀ i, (tr i).sample.ioErr = false) →
        (tr 0).port = { dir := (tr 0).state.regs.pinDir, out := (tr 0).state.regs.pinOut } →
        ∀ i, (tr i).port = { dir := (tr i).state.regs.pinDir, out := (tr i).state.regs.pinOut } ∧
          ((tr i).state.regs.pinDir = .output → (tr i).wire = (tr i).state.regs.pinOut) ∧
          ((tr i).state.regs.pinDir = .input → (tr i).sample.pinIn = (tr i).wire))

/-- The end of a cycle is always reached (R129, the spec's inference, under its premises R270(a) and (b), with gaps and time
parameters below 2^63: log entry 18): on a trace without reset, every busy instant is followed by one in `Done` or `Failed`. -/
def Obligations.EveryCycleEndsUnderClockProgress : Prop :=
  ∀ (tr : Nat → Instant) (i : Nat), isTrace tr → neverReset tr → clockProgress tr → gapsBelowHalf tr →
    (tr i).state.cfg.tStartLow.toNat < 2 ^ 63 → (tr i).state.cfg.tRelease.toNat < 2 ^ 63 →
    (tr i).state.cfg.tTurnaround.toNat < 2 ^ 63 → (tr i).state.cfg.tEdgeTimeout.toNat < 2 ^ 63 →
    (tr i).state.regs.busy = true →
    ∃ j, i < j ∧ ((tr j).state.regs.phase = .done ∨ (tr j).state.regs.phase = .failed)
end

