-- ==== Sys2Proof/Laws/State.lean ====
section
/-! SUPPORT. One lemma per field per update, so that no later proof unfolds a record update. -/

namespace Sys2Proof.Machine

/-! ## `commit` -/

@[simp] theorem commit_cfg (s : State) (a : Rsp) (e : Effect) : (commit s a e).cfg = s.cfg := rfl

@[simp] theorem commit_regs (s : State) (a : Rsp) (e : Effect) : (commit s a e).regs = e.regs := rfl

@[simp] theorem commit_inputs (s : State) (a : Rsp) (e : Effect) : (commit s a e).inputs = s.inputs.tail := rfl

@[simp] theorem commit_instant (s : State) (a : Rsp) (e : Effect) : (commit s a e).instant = s.instant + 1 := rfl

@[simp] theorem commit_rsp (s : State) (a : Rsp) (e : Effect) : (commit s a e).rsp = a := rfl

@[simp] theorem commit_actions (s : State) (a : Rsp) (e : Effect) : (commit s a e).actions = e.actions := rfl

/-! ## `resetStep` -/

@[simp] theorem resetStep_cfg (s : State) : (resetStep s).cfg = s.cfg := rfl

@[simp] theorem resetStep_regs (s : State) : (resetStep s).regs = Regs.reset := rfl

@[simp] theorem resetStep_inputs (s : State) : (resetStep s).inputs = s.inputs.tail := rfl

@[simp] theorem resetStep_instant (s : State) : (resetStep s).instant = s.instant + 1 := rfl

@[simp] theorem resetStep_rsp (s : State) : (resetStep s).rsp = .none := rfl

@[simp] theorem resetStep_actions (s : State) : (resetStep s).actions = [] := rfl

/-! ## `State.withSample` -/

@[simp] theorem State.withSample_cfg (s : State) (x : Input) : (s.withSample x).cfg = s.cfg := rfl

@[simp] theorem State.withSample_regs (s : State) (x : Input) : (s.withSample x).regs = s.regs := rfl

@[simp] theorem State.withSample_inputs (s : State) (x : Input) : (s.withSample x).inputs = x :: s.inputs.tail := rfl

@[simp] theorem State.withSample_instant (s : State) (x : Input) : (s.withSample x).instant = s.instant := rfl

@[simp] theorem State.withSample_rsp (s : State) (x : Input) : (s.withSample x).rsp = s.rsp := rfl

@[simp] theorem State.withSample_actions (s : State) (x : Input) : (s.withSample x).actions = s.actions := rfl

@[simp] theorem State.withSample_sample (s : State) (x : Input) : (s.withSample x).sample = x := rfl

@[simp] theorem State.withSample_tail (s : State) (x : Input) : (s.withSample x).inputs.tail = s.inputs.tail := rfl

/-! ## `clearForCycle` -/

@[simp] theorem clearForCycle_frame (now : Time) (r : Regs) : (clearForCycle now r).frame = 0 := rfl

@[simp] theorem clearForCycle_tMark (now : Time) (r : Regs) : (clearForCycle now r).tMark = r.tMark := rfl

@[simp] theorem clearForCycle_lastTrigger (now : Time) (r : Regs) : (clearForCycle now r).lastTrigger = now := rfl

@[simp] theorem clearForCycle_phase (now : Time) (r : Regs) : (clearForCycle now r).phase = r.phase := rfl

@[simp] theorem clearForCycle_reqStep (now : Time) (r : Regs) : (clearForCycle now r).reqStep = r.reqStep := rfl

@[simp] theorem clearForCycle_half (now : Time) (r : Regs) : (clearForCycle now r).half = false := rfl

@[simp] theorem clearForCycle_bitCount (now : Time) (r : Regs) : (clearForCycle now r).bitCount = 0 := rfl

@[simp] theorem clearForCycle_armed (now : Time) (r : Regs) : (clearForCycle now r).armed = false := rfl

@[simp] theorem clearForCycle_refLevel (now : Time) (r : Regs) : (clearForCycle now r).refLevel = r.refLevel := rfl

@[simp] theorem clearForCycle_haveLast (now : Time) (r : Regs) : (clearForCycle now r).haveLast = true := rfl

@[simp] theorem clearForCycle_status (now : Time) (r : Regs) : (clearForCycle now r).status = .none := rfl

@[simp] theorem clearForCycle_pinDir (now : Time) (r : Regs) : (clearForCycle now r).pinDir = r.pinDir := rfl

@[simp] theorem clearForCycle_pinOut (now : Time) (r : Regs) : (clearForCycle now r).pinOut = r.pinOut := rfl

/-! ## `rearm` -/

@[simp] theorem rearm_frame (x : Input) (r : Regs) : (rearm x r).frame = r.frame := rfl

@[simp] theorem rearm_tMark (x : Input) (r : Regs) : (rearm x r).tMark = x.now := rfl

@[simp] theorem rearm_lastTrigger (x : Input) (r : Regs) : (rearm x r).lastTrigger = r.lastTrigger := rfl

@[simp] theorem rearm_phase (x : Input) (r : Regs) : (rearm x r).phase = r.phase := rfl

@[simp] theorem rearm_reqStep (x : Input) (r : Regs) : (rearm x r).reqStep = r.reqStep := rfl

@[simp] theorem rearm_half (x : Input) (r : Regs) : (rearm x r).half = r.half := rfl

@[simp] theorem rearm_bitCount (x : Input) (r : Regs) : (rearm x r).bitCount = r.bitCount := rfl

@[simp] theorem rearm_armed (x : Input) (r : Regs) : (rearm x r).armed = r.armed := rfl

@[simp] theorem rearm_refLevel (x : Input) (r : Regs) : (rearm x r).refLevel = x.pinIn := rfl

@[simp] theorem rearm_haveLast (x : Input) (r : Regs) : (rearm x r).haveLast = r.haveLast := rfl

@[simp] theorem rearm_status (x : Input) (r : Regs) : (rearm x r).status = r.status := rfl

@[simp] theorem rearm_pinDir (x : Input) (r : Regs) : (rearm x r).pinDir = r.pinDir := rfl

@[simp] theorem rearm_pinOut (x : Input) (r : Regs) : (rearm x r).pinOut = r.pinOut := rfl

/-! ## `arm` -/

@[simp] theorem arm_frame (x : Input) (r : Regs) : (arm x r).frame = r.frame := rfl

@[simp] theorem arm_tMark (x : Input) (r : Regs) : (arm x r).tMark = x.now := rfl

@[simp] theorem arm_lastTrigger (x : Input) (r : Regs) : (arm x r).lastTrigger = r.lastTrigger := rfl

@[simp] theorem arm_phase (x : Input) (r : Regs) : (arm x r).phase = r.phase := rfl

@[simp] theorem arm_reqStep (x : Input) (r : Regs) : (arm x r).reqStep = r.reqStep := rfl

@[simp] theorem arm_half (x : Input) (r : Regs) : (arm x r).half = r.half := rfl

@[simp] theorem arm_bitCount (x : Input) (r : Regs) : (arm x r).bitCount = r.bitCount := rfl

@[simp] theorem arm_armed (x : Input) (r : Regs) : (arm x r).armed = true := rfl

@[simp] theorem arm_refLevel (x : Input) (r : Regs) : (arm x r).refLevel = x.pinIn := rfl

@[simp] theorem arm_haveLast (x : Input) (r : Regs) : (arm x r).haveLast = r.haveLast := rfl

@[simp] theorem arm_status (x : Input) (r : Regs) : (arm x r).status = r.status := rfl

@[simp] theorem arm_pinDir (x : Input) (r : Regs) : (arm x r).pinDir = r.pinDir := rfl

@[simp] theorem arm_pinOut (x : Input) (r : Regs) : (arm x r).pinOut = r.pinOut := rfl

/-! ## `fail` -/

@[simp] theorem fail_frame (code : Failure) (as : List Action) (r : Regs) : (fail code as r).regs.frame = r.frame := rfl

@[simp] theorem fail_tMark (code : Failure) (as : List Action) (r : Regs) : (fail code as r).regs.tMark = r.tMark := rfl

@[simp] theorem fail_lastTrigger (code : Failure) (as : List Action) (r : Regs) : (fail code as r).regs.lastTrigger = r.lastTrigger := rfl

@[simp] theorem fail_phase (code : Failure) (as : List Action) (r : Regs) : (fail code as r).regs.phase = .failed := rfl

@[simp] theorem fail_reqStep (code : Failure) (as : List Action) (r : Regs) : (fail code as r).regs.reqStep = r.reqStep := rfl

@[simp] theorem fail_half (code : Failure) (as : List Action) (r : Regs) : (fail code as r).regs.half = r.half := rfl

@[simp] theorem fail_bitCount (code : Failure) (as : List Action) (r : Regs) : (fail code as r).regs.bitCount = r.bitCount := rfl

@[simp] theorem fail_armed (code : Failure) (as : List Action) (r : Regs) : (fail code as r).regs.armed = false := rfl

@[simp] theorem fail_refLevel (code : Failure) (as : List Action) (r : Regs) : (fail code as r).regs.refLevel = r.refLevel := rfl

@[simp] theorem fail_haveLast (code : Failure) (as : List Action) (r : Regs) : (fail code as r).regs.haveLast = r.haveLast := rfl

@[simp] theorem fail_status (code : Failure) (as : List Action) (r : Regs) : (fail code as r).regs.status = code.status := rfl

@[simp] theorem fail_pinDir (code : Failure) (as : List Action) (r : Regs) : (fail code as r).regs.pinDir = .output := rfl

@[simp] theorem fail_pinOut (code : Failure) (as : List Action) (r : Regs) : (fail code as r).regs.pinOut = true := rfl

@[simp] theorem fail_actions (code : Failure) (as : List Action) (r : Regs) : (fail code as r).actions = as ++ restore := rfl

/-! ## `finish` -/

@[simp] theorem finish_frame (f : Frame) (r : Regs) : (finish f r).frame = r.frame := rfl

@[simp] theorem finish_tMark (f : Frame) (r : Regs) : (finish f r).tMark = r.tMark := rfl

@[simp] theorem finish_lastTrigger (f : Frame) (r : Regs) : (finish f r).lastTrigger = r.lastTrigger := rfl

@[simp] theorem finish_phase (f : Frame) (r : Regs) : (finish f r).phase = .done := rfl

@[simp] theorem finish_reqStep (f : Frame) (r : Regs) : (finish f r).reqStep = r.reqStep := rfl

@[simp] theorem finish_half (f : Frame) (r : Regs) : (finish f r).half = r.half := rfl

@[simp] theorem finish_bitCount (f : Frame) (r : Regs) : (finish f r).bitCount = r.bitCount := rfl

@[simp] theorem finish_armed (f : Frame) (r : Regs) : (finish f r).armed = false := rfl

@[simp] theorem finish_refLevel (f : Frame) (r : Regs) : (finish f r).refLevel = r.refLevel := rfl

@[simp] theorem finish_haveLast (f : Frame) (r : Regs) : (finish f r).haveLast = r.haveLast := rfl

@[simp] theorem finish_status (f : Frame) (r : Regs) : (finish f r).status = if checksumOk f then .valid else .checksumMismatch := rfl

@[simp] theorem finish_pinDir (f : Frame) (r : Regs) : (finish f r).pinDir = r.pinDir := rfl

@[simp] theorem finish_pinOut (f : Frame) (r : Regs) : (finish f r).pinOut = r.pinOut := rfl

/-! ## `takeBit` -/

@[simp] theorem takeBit_frame (cfg : Config) (x : Input) (d : Time) (r : Regs) : (takeBit cfg x d r).frame = shiftIn r.frame (bitValue cfg d) := rfl

@[simp] theorem takeBit_tMark (cfg : Config) (x : Input) (d : Time) (r : Regs) : (takeBit cfg x d r).tMark = x.now := rfl

@[simp] theorem takeBit_lastTrigger (cfg : Config) (x : Input) (d : Time) (r : Regs) : (takeBit cfg x d r).lastTrigger = r.lastTrigger := rfl

@[simp] theorem takeBit_phase (cfg : Config) (x : Input) (d : Time) (r : Regs) : (takeBit cfg x d r).phase = r.phase := rfl

@[simp] theorem takeBit_reqStep (cfg : Config) (x : Input) (d : Time) (r : Regs) : (takeBit cfg x d r).reqStep = r.reqStep := rfl

@[simp] theorem takeBit_half (cfg : Config) (x : Input) (d : Time) (r : Regs) : (takeBit cfg x d r).half = false := rfl

@[simp] theorem takeBit_bitCount (cfg : Config) (x : Input) (d : Time) (r : Regs) : (takeBit cfg x d r).bitCount = r.bitCount + 1 := rfl

@[simp] theorem takeBit_armed (cfg : Config) (x : Input) (d : Time) (r : Regs) : (takeBit cfg x d r).armed = r.armed := rfl

@[simp] theorem takeBit_refLevel (cfg : Config) (x : Input) (d : Time) (r : Regs) : (takeBit cfg x d r).refLevel = x.pinIn := rfl

@[simp] theorem takeBit_haveLast (cfg : Config) (x : Input) (d : Time) (r : Regs) : (takeBit cfg x d r).haveLast = r.haveLast := rfl

@[simp] theorem takeBit_status (cfg : Config) (x : Input) (d : Time) (r : Regs) : (takeBit cfg x d r).status = r.status := rfl

@[simp] theorem takeBit_pinDir (cfg : Config) (x : Input) (d : Time) (r : Regs) : (takeBit cfg x d r).pinDir = r.pinDir := rfl

@[simp] theorem takeBit_pinOut (cfg : Config) (x : Input) (d : Time) (r : Regs) : (takeBit cfg x d r).pinOut = r.pinOut := rfl

/-! ## The sample -/

@[simp] theorem State.sample_cons (s : State) (x : Input) (xs : List Input) (h : s.inputs = x :: xs) : s.sample = x := by
  simp [State.sample, h]

@[simp] theorem Input.withoutCommand_rst (x : Input) : x.withoutCommand.rst = x.rst := rfl

@[simp] theorem Input.withoutCommand_now (x : Input) : x.withoutCommand.now = x.now := rfl

@[simp] theorem Input.withoutCommand_pinIn (x : Input) : x.withoutCommand.pinIn = x.pinIn := rfl

@[simp] theorem Input.withoutCommand_ioErr (x : Input) : x.withoutCommand.ioErr = x.ioErr := rfl

@[simp] theorem Input.withoutCommand_cmdValid (x : Input) : x.withoutCommand.cmdValid = false := rfl

end Sys2Proof.Machine
end

