-- ==== Sys2Proof/Laws/Decode.lean ====
section
/-! SUPPORT. What the decoders answer on command words and on the state codes of registers. -/

namespace Sys2Proof.Machine

/-- The micro-operation of a state code, by its fields: the "Selected when" of the micro-operation rules. -/
def selectedOp (p : Phase) (q : ReqStep) (half armed : Bool) : Instr :=
  match p with
  | .idle => .seqIdle
  | .requesting =>
    match q with
    | .reqHigh => .seqReqHigh
    | .reqLow => .seqReqLow
    | .reqRelease => .seqReqRelease
    | .reqTurn => if armed then .seqTurnWait else .seqTurnArm
  | .awaitingResponseLow => .seqAckLow
  | .awaitingResponseHigh => .seqAckHigh
  | .readingBits => if half then .seqBitHigh else .seqBitLow
  | .done => .seqDone
  | .failed => .seqFailed

/-- The table and the fields agree. -/
theorem decodeStateCode_stateCodeOf (p : Phase) (q : ReqStep) (half armed : Bool) :
    decodeStateCode (stateCodeOf p q half armed) = .ok (selectedOp p q half armed) := by
  cases p <;> cases q <;> cases half <;> cases armed <;> decide

/-- Every state of the sequencer selects one micro-operation. -/
theorem decodeStateCode_stateCode (r : Regs) :
    decodeStateCode r.stateCode = .ok (selectedOp r.phase r.reqStep r.half r.armed) :=
  decodeStateCode_stateCodeOf _ _ _ _

/-- A command word without `cmd_valid` presents no command. -/
theorem decodeCommand_of_not_valid (c : BitVec 2) : decodeCommand (commandWordOf false c) = .rejected .noCommand := by
  revert c; decide

/-- A command word with `cmd_valid` presents the command of its code. -/
theorem decodeCommand_of_valid (c : BitVec 2) :
    decodeCommand (commandWordOf true c) =
      .ok (if c = 0 then .nop else if c = 1 then .poll else if c = 2 then .rsv2 else .rsv3) := by
  revert c; decide

end Sys2Proof.Machine
end

