-- ==== Sys2Proof/Laws/Ops.lean ====
section
/-! SUPPORT. For each shared operation, what it can do. -/

namespace Sys2Proof.Machine

/-- What `edge_step` can answer. -/
theorem edgeStep_cases (r : Regs) (x : Input) (timeout : Time) :
    (x.pinIn ≠ r.refLevel ∧ edgeStep r x timeout = .edge { level := x.pinIn, duration := dur x.now r.tMark }) ∨
      (x.pinIn = r.refLevel ∧ timeout < dur x.now r.tMark ∧ edgeStep r x timeout = .timeout) ∨
      (x.pinIn = r.refLevel ∧ dur x.now r.tMark ≤ timeout ∧ edgeStep r x timeout = .pending) := by
  by_cases h : x.pinIn = r.refLevel
  · by_cases h' : timeout < dur x.now r.tMark
    · simp [edgeStep, h, h']
    · simp [edgeStep, h, h', BitVec.not_lt.mp h']
  · simp [edgeStep, h]

/-- The start of a cycle: `Requesting`, or `Failed` with `IoError`. -/
theorem startCycle_cases (x : Input) (r : Regs) :
    (x.ioErr = true ∧
        startCycle x r = fail .ioError [.configure .output, .write true] (clearForCycle x.now r)) ∨
      (x.ioErr = false ∧
        startCycle x r =
          { regs := { clearForCycle x.now r with
              phase := .requesting, reqStep := .reqHigh, pinDir := .output, pinOut := true }
            actions := [.configure .output, .write true] }) := by
  cases h : x.ioErr <;> simp [startCycle, h]

/-- A bit timeout ends the cycle in `Done` or `Failed`, by the policy alone. -/
theorem bitTimeout_cases (cfg : Config) (as : List Action) (r : Regs) :
    (cfg.bitTimeoutPolicy = .decoderInvalid ∧
        bitTimeout cfg as r =
          { regs := { r with phase := .done, status := .checksumMismatch, armed := false }, actions := as }) ∨
      (cfg.bitTimeoutPolicy = .sequencerAbort ∧ bitTimeout cfg as r = fail .edgeTimeout as r) := by
  cases h : cfg.bitTimeoutPolicy <;> simp [bitTimeout, h]

/-- `accept` is true exactly where the answer is `ACCEPTED`. -/
theorem commandAnswer_accept_iff (s : State) : (commandAnswer s).accept = true ↔ (commandAnswer s).rsp = .accepted := by
  unfold commandAnswer answerNop answerPoll answerRsv2 answerRsv3 answerNoCommand
  repeat' split
  all_goals simp

/-- A sample that presents no command is answered so (R122). -/
theorem commandAnswer_of_not_valid (s : State) (h : s.sample.cmdValid = false) : commandAnswer s = answerNoCommand := by
  simp only [commandAnswer, Input.commandWord, h, decodeCommand_of_not_valid]

/-- The effect of the selected micro-operation, by the fields of the state code. -/
def effectByFields (accept : Bool) (cfg : Config) (x : Input) (r : Regs) : Effect :=
  match r.phase with
  | .idle => seqIdle accept x r
  | .requesting =>
    match r.reqStep with
    | .reqHigh => seqReqHigh x r
    | .reqLow => seqReqLow cfg x r
    | .reqRelease => seqReqRelease cfg x r
    | .reqTurn => if r.armed then seqTurnWait cfg x r else seqTurnArm x r
  | .awaitingResponseLow => seqAckLow cfg x r
  | .awaitingResponseHigh => seqAckHigh cfg x r
  | .readingBits => if r.half then seqBitHigh cfg x r else seqBitLow cfg x r
  | .done => seqDone accept x r
  | .failed => seqFailed accept x r

/-- The dispatch by the decoder is the dispatch by the fields. -/
theorem selectedEffect_eq (accept : Bool) (cfg : Config) (x : Input) (r : Regs) :
    selectedEffect accept cfg x r = some (effectByFields accept cfg x r) := by
  unfold selectedEffect effectByFields
  rw [decodeStateCode_stateCode]
  cases h : r.phase <;> simp only [selectedOp]
  · cases r.reqStep <;> simp only
    cases r.armed <;> rfl
  · cases r.half <;> rfl

/-- A command runs the selected micro-operation with its answer. -/
theorem runSelected_eq (a : Answer) (s : State) :
    runSelected a s = .next (commit s a.rsp (effectByFields a.accept s.cfg s.sample s.regs)) := by
  simp [runSelected, selectedEffect_eq]

end Sys2Proof.Machine
end

