-- ==== Sys2Proof/Laws/Step.lean ====
section
/-! SUPPORT. What a step can do, said once. -/

namespace Sys2Proof.Machine

/-- Where a command is presented its answer is the answer of the instant. -/
theorem exec_of_command (s : State) (c : Instr) (h : decodeCommand s.sample.commandWord = .ok c) :
    exec c s = runSelected (commandAnswer s) s := by
  have hv : s.sample.cmdValid = true := by
    cases hv : s.sample.cmdValid
    · simp [Input.commandWord, hv, decodeCommand_of_not_valid] at h
    · rfl
  rw [Input.commandWord, hv, decodeCommand_of_valid] at h
  unfold commandAnswer
  rw [Input.commandWord, hv, decodeCommand_of_valid]
  cases h
  split <;> rename_i hc
  · rfl
  · split <;> rename_i hc'
    · rfl
    · split <;> rfl

/-- The micro-operation a state selects has the effect the fields of its state code say. -/
theorem exec_of_selected (s : State) (m : Instr) (h : decodeStateCode s.regs.stateCode = .ok m) :
    exec m s =
      .next (commit s (commandAnswer s).rsp (effectByFields (commandAnswer s).accept s.cfg s.sample s.regs)) := by
  rw [decodeStateCode_stateCode] at h
  cases h
  unfold effectByFields
  cases hp : s.regs.phase <;> simp only [selectedOp]
  · rfl
  · cases s.regs.reqStep <;> simp only
    · rfl
    · rfl
    · rfl
    · cases s.regs.armed <;> rfl
  · rfl
  · rfl
  · cases s.regs.half <;> rfl
  · rfl
  · rfl

/-- A step without reset, in a state without an unreachable code: the answer of the instant, and the effect of the selected
micro-operation. -/
theorem step_of_not_rst (s : State) (hr : s.sample.rst = false) (hc : s.regs.bitCount.toNat ≤ 40) :
    step s =
      .next (commit s (commandAnswer s).rsp (effectByFields (commandAnswer s).accept s.cfg s.sample s.regs)) := by
  have hu : s.regs.unreachableCount = false := by
    rw [Regs.unreachableCount, nBits, decide_eq_false_iff_not]; omega
  simp only [step, hr, hu, Bool.false_eq_true, if_false, fetch]
  cases h : decodeCommand s.sample.commandWord with
  | ok c => exact (exec_of_command s c h).trans (runSelected_eq _ _)
  | rejected r =>
    rw [decodeStateCode_stateCode]
    exact exec_of_selected s _ (decodeStateCode_stateCode _)

/-- Everything a step that goes on can have done. -/
theorem step_cases {s t : State} (h : step s = .next t) :
    (s.sample.rst = true ∧ t = resetStep s) ∨
      (s.sample.rst = false ∧ s.regs.bitCount.toNat ≤ 40 ∧
        t = commit s (commandAnswer s).rsp (effectByFields (commandAnswer s).accept s.cfg s.sample s.regs)) := by
  cases hr : s.sample.rst with
  | true =>
    left
    simp only [step, hr, if_true] at h
    exact ⟨rfl, by cases h; rfl⟩
  | false =>
    right
    by_cases hc : s.regs.bitCount.toNat ≤ 40
    · rw [step_of_not_rst s hr hc] at h
      exact ⟨rfl, hc, by cases h; rfl⟩
    · have hu : s.regs.unreachableCount = true := by
        rw [Regs.unreachableCount, nBits, decide_eq_true_iff]; omega
      simp [step, hr, hu] at h

/-- The first of several steps, where it goes on. -/
theorem runSteps_succ {s t : State} (n : Nat) (h : step s = .next t) : runSteps (n + 1) s = runSteps n t := by
  have h' : Sys2Proof.core.step s = .next t := h
  simp only [runSteps, Host.Core.run, h']
  rfl

/-- No steps. -/
theorem runSteps_zero (s : State) : runSteps 0 s = .next s := rfl

/-- The first of several steps, where it stops. -/
theorem runSteps_succ_fault {s : State} {r : Fault} (n : Nat) (h : step s = .fault r) : runSteps (n + 1) s = .fault r := by
  have h' : Sys2Proof.core.step s = .fault r := h
  simp only [runSteps, Host.Core.run, h']
  rfl

/-- No step is refused. -/
theorem step_ne_refused (s : State) (r : Refusal) : step s ≠ .refused r := by
  intro h
  cases hr : s.sample.rst
  · by_cases hc : s.regs.bitCount.toNat ≤ 40
    · rw [step_of_not_rst s hr hc] at h; cases h
    · have hu : s.regs.unreachableCount = true := by
        rw [Regs.unreachableCount, nBits, decide_eq_true_iff]; omega
      simp [step, hr, hu] at h
  · simp [step, hr] at h

/-- A run of one more step, taken at the end. -/
theorem runSteps_snoc {s t : State} (n : Nat) (h : runSteps n s = .next t) : runSteps (n + 1) s = step t := by
  induction n generalizing s with
  | zero =>
    have e : s = t := by rw [runSteps_zero] at h; injection h
    subst e
    cases hs : step s with
    | next u => exact runSteps_succ 0 hs
    | fault r => exact runSteps_succ_fault 0 hs
    | refused r => exact absurd hs (step_ne_refused s r)
  | succ n ih =>
    cases hs : step s with
    | next u =>
      rw [runSteps_succ n hs] at h
      rw [runSteps_succ (n + 1) hs]
      exact ih h
    | fault r => rw [runSteps_succ_fault n hs] at h; cases h
    | refused r => exact absurd hs (step_ne_refused s r)

/-- A busy state answers no command with `accept`. -/
theorem commandAnswer_accept_of_busy (s : State) (h : s.regs.busy = true) : (commandAnswer s).accept = false := by
  unfold commandAnswer answerNop answerPoll answerRsv2 answerRsv3 answerNoCommand
  repeat' split
  all_goals simp_all

/-- At an instant that presents `POLL` and has a step, `ready_to_poll` is true exactly where the answer is `ACCEPTED`
(R105). -/
theorem readyToPoll_iff_accepted {s t : State} (hc : decodeCommand s.sample.commandWord = .ok .poll)
    (h : step s = .next t) : readyToPoll s = true ↔ t.rsp = .accepted := by
  obtain ⟨hr, rfl⟩ | ⟨hr, -, rfl⟩ := step_cases h
  · simp [readyToPoll, hr]
  · have ha : commandAnswer s = answerPoll s := by simp only [commandAnswer, hc]
    rw [commit_rsp, ← commandAnswer_accept_iff, ha]
    simp [readyToPoll, hr]

end Sys2Proof.Machine
end

