-- ==== Sys2Proof/Laws/Effects.lean ====
section
/-! SUPPORT. What the selected micro-operation can do, said once: one constructor per row of 40_step.md R126's table. -/

namespace Sys2Proof.Machine

/-- No change at this sample: the level is the reference level and the deadline has not passed. -/
def waitPending (r : Regs) (x : Input) (timeout : Time) : Prop :=
  x.pinIn = r.refLevel ∧ dur x.now r.tMark ≤ timeout

/-- The deadline has passed without a change of level. -/
def waitTimedOut (r : Regs) (x : Input) (timeout : Time) : Prop :=
  x.pinIn = r.refLevel ∧ timeout < dur x.now r.tMark

/-- The effects a micro-operation of a running cycle can have, each with what selects it. -/
inductive BusyEffect (cfg : Config) (x : Input) (r : Regs) : Effect → Prop
  | portRefusesLow (hp : r.phase = .requesting) (hq : r.reqStep = .reqHigh) (hi : x.ioErr = true) :
      BusyEffect cfg x r (fail .ioError [.write false] r)
  | drivesLow (hp : r.phase = .requesting) (hq : r.reqStep = .reqHigh) (hi : x.ioErr = false) :
      BusyEffect cfg x r ⟨{ r with pinOut := false, tMark := x.now, reqStep := .reqLow }, [.write false]⟩
  | holdsLow (hp : r.phase = .requesting) (hq : r.reqStep = .reqLow) (hd : dur x.now r.tMark < cfg.tStartLow) :
      BusyEffect cfg x r ⟨r, []⟩
  | portRefusesHigh (hp : r.phase = .requesting) (hq : r.reqStep = .reqLow)
      (hd : cfg.tStartLow ≤ dur x.now r.tMark) (hi : x.ioErr = true) :
      BusyEffect cfg x r (fail .ioError [.write true] r)
  | drivesHigh (hp : r.phase = .requesting) (hq : r.reqStep = .reqLow)
      (hd : cfg.tStartLow ≤ dur x.now r.tMark) (hi : x.ioErr = false) :
      BusyEffect cfg x r ⟨{ r with pinOut := true, tMark := x.now, reqStep := .reqRelease }, [.write true]⟩
  | holdsHigh (hp : r.phase = .requesting) (hq : r.reqStep = .reqRelease) (hd : dur x.now r.tMark < cfg.tRelease) :
      BusyEffect cfg x r ⟨r, []⟩
  | portRefusesInput (hp : r.phase = .requesting) (hq : r.reqStep = .reqRelease)
      (hd : cfg.tRelease ≤ dur x.now r.tMark) (hi : x.ioErr = true) :
      BusyEffect cfg x r (fail .ioError [.configure .input] r)
  | switchesToInput (hp : r.phase = .requesting) (hq : r.reqStep = .reqRelease)
      (hd : cfg.tRelease ≤ dur x.now r.tMark) (hi : x.ioErr = false) :
      BusyEffect cfg x r ⟨{ r with pinDir := .input, armed := false, reqStep := .reqTurn }, [.configure .input]⟩
  | arms (hp : r.phase = .requesting) (hq : r.reqStep = .reqTurn) (ha : r.armed = false) :
      BusyEffect cfg x r ⟨arm x r, [.read]⟩
  | turnPending (hp : r.phase = .requesting) (hq : r.reqStep = .reqTurn) (ha : r.armed = true)
      (hw : waitPending r x cfg.tTurnaround) : BusyEffect cfg x r ⟨r, [.read]⟩
  | turnTimeout (hp : r.phase = .requesting) (hq : r.reqStep = .reqTurn) (ha : r.armed = true)
      (hw : waitTimedOut r x cfg.tTurnaround) : BusyEffect cfg x r (fail .edgeTimeout [.read] r)
  | turnAccepted (hp : r.phase = .requesting) (hq : r.reqStep = .reqTurn) (ha : r.armed = true)
      (he : x.pinIn ≠ r.refLevel) (hl : x.pinIn = false) (hd : dur x.now r.tMark ≤ cfg.tTurnaround) :
      BusyEffect cfg x r ⟨{ rearm x r with phase := .awaitingResponseLow }, [.read]⟩
  | turnRejected (hp : r.phase = .requesting) (hq : r.reqStep = .reqTurn) (ha : r.armed = true)
      (he : x.pinIn ≠ r.refLevel) (hd : x.pinIn = true ∨ cfg.tTurnaround < dur x.now r.tMark) :
      BusyEffect cfg x r (fail .timingViolation [.read] r)
  | ackPending (hp : r.phase = .awaitingResponseLow ∨ r.phase = .awaitingResponseHigh)
      (hw : waitPending r x cfg.tEdgeTimeout) : BusyEffect cfg x r ⟨r, [.read]⟩
  | ackTimeout (hp : r.phase = .awaitingResponseLow ∨ r.phase = .awaitingResponseHigh)
      (hw : waitTimedOut r x cfg.tEdgeTimeout) : BusyEffect cfg x r (fail .edgeTimeout [.read] r)
  | ackLowAccepted (hp : r.phase = .awaitingResponseLow) (he : x.pinIn ≠ r.refLevel)
      (hd : cfg.tAckMin ≤ dur x.now r.tMark ∧ dur x.now r.tMark ≤ cfg.tAckMax) :
      BusyEffect cfg x r ⟨{ rearm x r with phase := .awaitingResponseHigh }, [.read]⟩
  | ackHighAccepted (hp : r.phase = .awaitingResponseHigh) (he : x.pinIn ≠ r.refLevel)
      (hd : cfg.tAckMin ≤ dur x.now r.tMark ∧ dur x.now r.tMark ≤ cfg.tAckMax) :
      BusyEffect cfg x r ⟨{ rearm x r with phase := .readingBits }, [.read]⟩
  | ackRejected (hp : r.phase = .awaitingResponseLow ∨ r.phase = .awaitingResponseHigh) (he : x.pinIn ≠ r.refLevel)
      (hd : dur x.now r.tMark < cfg.tAckMin ∨ cfg.tAckMax < dur x.now r.tMark) :
      BusyEffect cfg x r (fail .timingViolation [.read] r)
  | bitPending (hp : r.phase = .readingBits) (hw : waitPending r x cfg.tEdgeTimeout) :
      BusyEffect cfg x r ⟨r, [.read]⟩
  | bitTimeoutInvalid (hp : r.phase = .readingBits) (hw : waitTimedOut r x cfg.tEdgeTimeout)
      (hb : cfg.bitTimeoutPolicy = .decoderInvalid) :
      BusyEffect cfg x r ⟨{ r with phase := .done, status := .checksumMismatch, armed := false }, [.read]⟩
  | bitTimeoutAbort (hp : r.phase = .readingBits) (hw : waitTimedOut r x cfg.tEdgeTimeout)
      (hb : cfg.bitTimeoutPolicy = .sequencerAbort) : BusyEffect cfg x r (fail .edgeTimeout [.read] r)
  | lowHalfEnds (hp : r.phase = .readingBits) (hh : r.half = false) (he : x.pinIn ≠ r.refLevel) :
      BusyEffect cfg x r ⟨{ rearm x r with half := true }, [.read]⟩
  | bitTaken (hp : r.phase = .readingBits) (hh : r.half = true) (he : x.pinIn ≠ r.refLevel)
      (hn : r.bitCount ≠ 39) : BusyEffect cfg x r ⟨takeBit cfg x (dur x.now r.tMark) r, [.read]⟩
  | lastBitTaken (hp : r.phase = .readingBits) (hh : r.half = true) (he : x.pinIn ≠ r.refLevel)
      (hn : r.bitCount = 39) :
      BusyEffect cfg x r
        ⟨finish (shiftIn r.frame (bitValue cfg (dur x.now r.tMark))) (takeBit cfg x (dur x.now r.tMark) r), [.read]⟩

/-- The turnaround test fails exactly on a high level or a late edge. -/
theorem turnOk_eq_false (cfg : Config) (m : EdgeMeasurement) :
    turnOk cfg m = false ↔ m.level = true ∨ cfg.tTurnaround < m.duration := by
  cases h : m.level <;> simp [turnOk, h]

/-- The window test fails exactly outside the window. -/
theorem inAckWindow_eq_false (cfg : Config) (d : Time) :
    inAckWindow cfg d = false ↔ d < cfg.tAckMin ∨ cfg.tAckMax < d := by
  simp only [inAckWindow, Bool.and_eq_false_iff, decide_eq_false_iff_not, BitVec.not_le]

/-- The 40th bit is the one taken at a count of 39. -/
theorem bitCount_succ_eq (n : BitVec 6) : (n + 1 == BitVec.ofNat 6 nBits) = (n == 39) := by
  revert n; decide

/-- Everything a micro-operation of a running cycle can do. -/
theorem busyEffect_of_busy (a : Bool) (cfg : Config) (x : Input) (r : Regs) (hb : r.busy = true) :
    BusyEffect cfg x r (effectByFields a cfg x r) := by
  unfold Regs.busy at hb
  unfold effectByFields
  cases hp : r.phase <;> simp only [hp, Phase.isBusy, Bool.false_eq_true] at hb ⊢
  · cases hq : r.reqStep <;> simp only
    · cases hi : x.ioErr <;> simp only [seqReqHigh, hi, if_true, if_false, Bool.false_eq_true]
      · exact .drivesLow hp hq hi
      · exact .portRefusesLow hp hq hi
    · by_cases hd : cfg.tStartLow ≤ dur x.now r.tMark
      · cases hi : x.ioErr <;> simp only [seqReqLow, holdOver, hd, hi, decide_true, if_true, if_false, Bool.false_eq_true]
        · exact .drivesHigh hp hq hd hi
        · exact .portRefusesHigh hp hq hd hi
      · simp only [seqReqLow, holdOver, hd, decide_false, if_false, Bool.false_eq_true]
        exact .holdsLow hp hq (BitVec.not_le.mp hd)
    · by_cases hd : cfg.tRelease ≤ dur x.now r.tMark
      · cases hi : x.ioErr <;>
          simp only [seqReqRelease, holdOver, hd, hi, decide_true, if_true, if_false, Bool.false_eq_true]
        · exact .switchesToInput hp hq hd hi
        · exact .portRefusesInput hp hq hd hi
      · simp only [seqReqRelease, holdOver, hd, decide_false, if_false, Bool.false_eq_true]
        exact .holdsHigh hp hq (BitVec.not_le.mp hd)
    · cases ha : r.armed <;> simp only [if_true, if_false, Bool.false_eq_true]
      · exact .arms hp hq ha
      · unfold seqTurnWait
        obtain ⟨he, h⟩ | ⟨he, hd, h⟩ | ⟨he, hd, h⟩ := edgeStep_cases r x cfg.tTurnaround <;> simp only [h]
        · cases ht : turnOk cfg ⟨x.pinIn, dur x.now r.tMark⟩ <;> simp only [if_true, if_false, Bool.false_eq_true]
          · exact .turnRejected hp hq ha he ((turnOk_eq_false _ _).mp ht)
          · simp only [turnOk, Bool.and_eq_true, beq_iff_eq, decide_eq_true_iff] at ht
            exact .turnAccepted hp hq ha he ht.1 ht.2
        · exact .turnTimeout hp hq ha ⟨he, hd⟩
        · exact .turnPending hp hq ha ⟨he, hd⟩
  · unfold seqAckLow
    obtain ⟨he, h⟩ | ⟨he, hd, h⟩ | ⟨he, hd, h⟩ := edgeStep_cases r x cfg.tEdgeTimeout <;> simp only [h]
    · cases ht : inAckWindow cfg (dur x.now r.tMark) <;> simp only [if_true, if_false, Bool.false_eq_true]
      · exact .ackRejected (.inl hp) he ((inAckWindow_eq_false _ _).mp ht)
      · simp only [inAckWindow, Bool.and_eq_true, decide_eq_true_iff] at ht
        exact .ackLowAccepted hp he ht
    · exact .ackTimeout (.inl hp) ⟨he, hd⟩
    · exact .ackPending (.inl hp) ⟨he, hd⟩
  · unfold seqAckHigh
    obtain ⟨he, h⟩ | ⟨he, hd, h⟩ | ⟨he, hd, h⟩ := edgeStep_cases r x cfg.tEdgeTimeout <;> simp only [h]
    · cases ht : inAckWindow cfg (dur x.now r.tMark) <;> simp only [if_true, if_false, Bool.false_eq_true]
      · exact .ackRejected (.inr hp) he ((inAckWindow_eq_false _ _).mp ht)
      · simp only [inAckWindow, Bool.and_eq_true, decide_eq_true_iff] at ht
        exact .ackHighAccepted hp he ht
    · exact .ackTimeout (.inr hp) ⟨he, hd⟩
    · exact .ackPending (.inr hp) ⟨he, hd⟩
  · cases hh : r.half <;> simp only [if_true, if_false, Bool.false_eq_true]
    · unfold seqBitLow
      obtain ⟨he, h⟩ | ⟨he, hd, h⟩ | ⟨he, hd, h⟩ := edgeStep_cases r x cfg.tEdgeTimeout <;> simp only [h]
      · exact .lowHalfEnds hp hh he
      · obtain ⟨hc, h⟩ | ⟨hc, h⟩ := bitTimeout_cases cfg [.read] r <;> rw [h]
        · exact .bitTimeoutInvalid hp ⟨he, hd⟩ hc
        · exact .bitTimeoutAbort hp ⟨he, hd⟩ hc
      · exact .bitPending hp ⟨he, hd⟩
    · unfold seqBitHigh
      obtain ⟨he, h⟩ | ⟨he, hd, h⟩ | ⟨he, hd, h⟩ := edgeStep_cases r x cfg.tEdgeTimeout <;> simp only [h]
      · rw [bitCount_succ_eq]
        by_cases hn : r.bitCount = 39
        · simp only [hn, beq_self_eq_true, if_true]
          exact .lastBitTaken hp hh he hn
        · simp only [beq_iff_eq, hn, if_false]
          exact .bitTaken hp hh he hn
      · obtain ⟨hc, h⟩ | ⟨hc, h⟩ := bitTimeout_cases cfg [.read] r <;> rw [h]
        · exact .bitTimeoutInvalid hp ⟨he, hd⟩ hc
        · exact .bitTimeoutAbort hp ⟨he, hd⟩ hc
      · exact .bitPending hp ⟨he, hd⟩

/-- At rest a micro-operation starts a cycle with `accept`, and does nothing without it. -/
theorem restEffect_of_not_busy (a : Bool) (cfg : Config) (x : Input) (r : Regs) (hb : r.busy = false) :
    effectByFields a cfg x r = if a then startCycle x r else ⟨r, []⟩ := by
  unfold Regs.busy at hb
  unfold effectByFields
  cases hp : r.phase <;> simp only [hp, Phase.isBusy, Bool.true_eq_false] at hb ⊢
  · rfl
  · rfl
  · rfl

end Sys2Proof.Machine
end

