-- ==== Sys2Proof/Laws/Environment.lean ====
section
/-! SUPPORT. What the port does under each action, and what clock progress gives: a 64-bit wait is outlasted. -/

namespace Sys2Proof.Machine

/-! ## `Port.apply` -/

@[simp] theorem Port.apply_nil (p : Port) : p.apply [] = p := rfl

@[simp] theorem Port.apply_configure (p : Port) (d : Direction) (as : List Action) :
    p.apply (.configure d :: as) = Port.apply { p with dir := d } as := rfl

@[simp] theorem Port.apply_write (p : Port) (b : Level) (as : List Action) :
    p.apply (.write b :: as) = Port.apply { p with out := b } as := rfl

@[simp] theorem Port.apply_read (p : Port) (as : List Action) : p.apply (.read :: as) = p.apply as := rfl

/-! ## Elapsed time -/

@[simp] theorem elapsed_zero (tr : Nat → Instant) (i : Nat) : elapsed tr i 0 = 0 := rfl

theorem elapsed_succ (tr : Nat → Instant) (i k : Nat) :
    elapsed tr i (k + 1) = elapsed tr i k + sampleGap tr (i + k) := rfl

/-- Elapsed time does not shrink. -/
theorem elapsed_mono (tr : Nat → Instant) (i : Nat) {k l : Nat} (h : k ≤ l) : elapsed tr i k ≤ elapsed tr i l := by
  induction l with
  | zero => rw [Nat.le_zero.mp h]
  | succ l ih =>
    rw [elapsed_succ]
    obtain h | rfl := Nat.lt_or_eq_of_le h
    · have := ih (by omega); omega
    · rw [elapsed_succ]

/-- Time elapses piecewise. -/
theorem elapsed_add (tr : Nat → Instant) (i k l : Nat) : elapsed tr i (k + l) = elapsed tr i k + elapsed tr (i + k) l := by
  induction l with
  | zero => rfl
  | succ l ih => rw [← Nat.add_assoc, elapsed_succ, ih, elapsed_succ, Nat.add_assoc i k l]; omega

/-- The time since a mark, one sample later, modulo 2^64. -/
theorem dur_next (tr : Nat → Instant) (i : Nat) (t : Time) :
    (dur (tr (i + 1)).sample.now t).toNat = ((dur (tr i).sample.now t).toNat + sampleGap tr i) % 2 ^ 64 := by
  have h : dur (tr (i + 1)).sample.now t
      = dur (tr i).sample.now t + dur (tr (i + 1)).sample.now (tr i).sample.now := by
    unfold dur; bv_omega
  rw [h, BitVec.toNat_add, sampleGap]

/-- The 64-bit time between two samples is the elapsed time modulo 2^64. -/
theorem dur_eq_elapsed_mod (tr : Nat → Instant) (i k : Nat) :
    (dur (tr (i + k)).sample.now (tr i).sample.now).toNat = elapsed tr i k % 2 ^ 64 := by
  induction k with
  | zero => simp [dur]
  | succ k ih => rw [← Nat.add_assoc, dur_next, ih, elapsed_succ, Nat.mod_add_mod]

/-- The wording of decision D26, `dur >= T` at some later sample for every 64-bit `T`, implies clock progress. -/
theorem clockProgress_of_dur_reaches (tr : Nat → Instant)
    (h : ∀ (i : Nat) (t : Time), ∃ j, i < j ∧ t ≤ dur (tr j).sample.now (tr i).sample.now) : clockProgress tr := by
  have lap : ∀ i, ∃ k, 0 < k ∧ 0 < elapsed tr i k := by
    intro i
    obtain ⟨j, hj, ht⟩ := h i 1
    obtain ⟨k, rfl⟩ := Nat.exists_eq_add_of_lt hj
    refine ⟨k + 1, by omega, ?_⟩
    have ht' : 1 ≤ (dur (tr (i + (k + 1))).sample.now (tr i).sample.now).toNat := BitVec.le_def.mp ht
    rw [dur_eq_elapsed_mod] at ht'
    exact Nat.lt_of_lt_of_le ht' (Nat.mod_le _ _)
  intro i d
  induction d with
  | zero => exact lap i
  | succ d ih =>
    obtain ⟨k, hk, hd⟩ := ih
    obtain ⟨l, hl, hd'⟩ := lap (i + k)
    exact ⟨k + l, by omega, by rw [elapsed_add]; omega⟩

/-- With clock progress every 64-bit deadline that leaves room for one gap is passed, from any mark: R270(b)'s own words. -/
theorem deadline_passes (tr : Nat → Instant) (hp : clockProgress tr) (hg : gapsBelowHalf tr) (i : Nat) (t limit : Time)
    (hl : limit.toNat < 2 ^ 63) : ∃ k, limit < dur (tr (i + k)).sample.now t := by
  by_cases hall : ∀ k, dur (tr (i + k)).sample.now t ≤ limit
  · exfalso
    have sum : ∀ k, (dur (tr (i + k)).sample.now t).toNat = (dur (tr i).sample.now t).toNat + elapsed tr i k := by
      intro k
      induction k with
      | zero => rfl
      | succ k ih =>
        have hb := BitVec.le_def.mp (hall k)
        have hs := hg (i + k)
        rw [← Nat.add_assoc, dur_next, Nat.mod_eq_of_lt (by omega), ih, elapsed_succ, Nat.add_assoc]
    obtain ⟨k, -, hk⟩ := hp i limit.toNat
    have hb := BitVec.le_def.mp (hall k)
    have := sum k
    omega
  · obtain ⟨k, hk⟩ := Classical.not_forall.mp hall
    exact ⟨k, BitVec.not_le.mp hk⟩

/-- Every trace of this model has a valid pin. -/
theorem pinValid_of_isTrace (tr : Nat → Instant) (h : isTrace tr) : pinValid tr := by
  have keep : ∀ i, (tr (i + 1)).state.cfg = (tr i).state.cfg := by
    intro i
    obtain ⟨-, e⟩ | ⟨-, -, e⟩ := step_cases (h i) <;> rw [e] <;> rfl
  intro i
  refine ⟨(tr i).state.cfg.pin.isLt, ?_⟩
  induction i with
  | zero => rfl
  | succ i ih => rw [keep, ih]

end Sys2Proof.Machine
end

