-- ==== Sys2Proof/Laws/PerInstr.lean ====
section
/-! SUPPORT. The per-instruction families of LAWS.json. -/

namespace Sys2Proof.Laws.TableRow

/-- The word `encode` writes for an instruction is the pattern of exactly one row of its format's table, the row of that
instruction, and it is well formed (R91, R96). -/
def Statement (i : Instr) : Prop :=
  match encode i with
  | .command w =>
    commandWordWf w = true ∧ (commandRows.filter (fun r => r.selects w)).map (fun r => (r.pattern, r.instr)) = [(w, i)]
  | .stateCode sc =>
    stateCodeWf sc = true ∧ (stateRows.filter (fun r => r.selects sc)).map (fun r => (r.pattern, r.instr)) = [(sc, i)]

theorem nop : Statement .nop := ⟨by decide, by decide⟩

theorem poll : Statement .poll := ⟨by decide, by decide⟩

theorem rsv2 : Statement .rsv2 := ⟨by decide, by decide⟩

theorem rsv3 : Statement .rsv3 := ⟨by decide, by decide⟩

theorem seqIdle : Statement .seqIdle := ⟨by decide, by decide⟩

theorem seqReqHigh : Statement .seqReqHigh := ⟨by decide, by decide⟩

theorem seqReqLow : Statement .seqReqLow := ⟨by decide, by decide⟩

theorem seqReqRelease : Statement .seqReqRelease := ⟨by decide, by decide⟩

theorem seqTurnArm : Statement .seqTurnArm := ⟨by decide, by decide⟩

theorem seqTurnWait : Statement .seqTurnWait := ⟨by decide, by decide⟩

theorem seqAckLow : Statement .seqAckLow := ⟨by decide, by decide⟩

theorem seqAckHigh : Statement .seqAckHigh := ⟨by decide, by decide⟩

theorem seqBitLow : Statement .seqBitLow := ⟨by decide, by decide⟩

theorem seqBitHigh : Statement .seqBitHigh := ⟨by decide, by decide⟩

theorem seqDone : Statement .seqDone := ⟨by decide, by decide⟩

theorem seqFailed : Statement .seqFailed := ⟨by decide, by decide⟩

end Sys2Proof.Laws.TableRow
end

