-- ==== Sys2Proof/Tests/Slice0.lean ====
section
/-! SUPPORT. Tests of the model, their expected results from spec/95_test_vectors.md and the rules, and a witness for the
hypotheses of each obligation that has some. -/

namespace Sys2Proof.Tests

open Sys2Proof.Machine

/-! ## Helpers -/

/-- A sample without reset and without command. -/
def smp (now : Time) (pin : Level) : Input where
  rst := false
  now := now
  pinIn := pin
  ioErr := false
  cmdValid := false
  cmd := 0

/-- A sample that presents the command of code `c`. -/
def cmdAt (now : Time) (c : BitVec 2) : Input :=
  { smp now true with cmdValid := true, cmd := c }

/-- The sample with `io_err = 1`. -/
def ioErrAt (x : Input) : Input :=
  { x with ioErr := true }

/-- The reset state with the registers `r` and one sample to come. -/
def st (r : Regs) (x : Input) : State :=
  { State.reset with regs := r, inputs := [x] }

/-- What a step did: registers, answer, actions; `none` where it stopped. -/
def did (o : Host.Outcome State Fault Refusal) : Option (Regs × Rsp × List Action) :=
  match o with
  | .next t => some (t.regs, t.rsp, t.actions)
  | .fault _ => none
  | .refused _ => none

/-- The next state of a step, where it goes on. -/
def next? (s : State) : Option State :=
  match step s with
  | .next t => some t
  | .fault _ => none
  | .refused _ => none

theorem step_of_next? {s t : State} (h : next? s = some t) : step s = .next t := by
  unfold next? at h
  cases hs : step s <;> simp [hs] at h
  rw [h]

/-- V2: the turnaround wait, armed at 1_000_000 with the line high. -/
def turnRegs : Regs :=
  { Regs.reset with
    phase := .requesting, reqStep := .reqTurn, armed := true, refLevel := true, tMark := 1000000, haveLast := true
    pinDir := .input }

/-- P1 at 1_000: the start pulse is low since then. -/
def lowRegs : Regs :=
  { Regs.reset with phase := .requesting, reqStep := .reqLow, tMark := 1000, haveLast := true, pinOut := false }

/-- P1 at 20_001_000: the pulse is released since then. -/
def releaseRegs : Regs :=
  { Regs.reset with phase := .requesting, reqStep := .reqRelease, tMark := 20001000, haveLast := true }

/-- P1 before 1_000: the cycle has been started. -/
def highRegs : Regs :=
  { Regs.reset with phase := .requesting, haveLast := true }

/-- V3: the ACK-low pulse runs since 2_000_000. -/
def ackLowRegs : Regs :=
  { turnRegs with phase := .awaitingResponseLow, refLevel := false, tMark := 2000000 }

/-- V3: the ACK-high pulse runs since 2_000_000. -/
def ackHighRegs : Regs :=
  { turnRegs with phase := .awaitingResponseHigh, tMark := 2000000 }

/-- V4: the low half of the fourth bit since 3_000_000. -/
def bitLowRegs : Regs :=
  { turnRegs with phase := .readingBits, refLevel := false, tMark := 3000000, frame := 5, bitCount := 3 }

/-- V4: the high half of the fourth bit since 3_000_000. -/
def bitHighRegs : Regs :=
  { bitLowRegs with half := true, refLevel := true }

/-- V5: the high half of the last bit of scenario A's frame since 3_000_000. -/
def lastBitRegs : Regs :=
  { bitHighRegs with frame := 0x16800B8022, bitCount := 39 }

/-- P1's end state: a valid reading, triggered at 0. -/
def doneRegs : Regs :=
  { Regs.reset with
    phase := .done, reqStep := .reqTurn, bitCount := 40, frame := 0x2D00170044, status := .valid, tMark := 23702000
    haveLast := true, pinDir := .input }

/-- P4's end state: the sensor never answered. -/
def failedState : Regs :=
  { Regs.reset with
    phase := .failed, reqStep := .reqTurn, refLevel := true, status := .edgeTimeout, tMark := 20022000, haveLast := true }

/-- The default configuration with the other timeout policy. -/
def abortCfg : Config :=
  { Config.default with bitTimeoutPolicy := .sequencerAbort }

/-! ## WellFormed: each check passes the defaults and refuses an ill-formed term (R7, R8, R63, R91, R101) -/

theorem test_default_wf : Config.default.wf = true ∧ Config.default.documented = true := by decide

theorem test_start_low_too_short : { Config.default with tStartLow := 19999999 }.startLowInRange = false := by decide

theorem test_start_low_too_long : { Config.default with tStartLow := 30000001 }.wf = false := by decide

theorem test_release_too_long : { Config.default with tRelease := 40001 }.releaseInRange = false := by decide

theorem test_ack_window_empty : { Config.default with tAckMin := 90001 }.ackWindowOrdered = false := by decide

theorem test_edge_timeout_below_ack : { Config.default with tEdgeTimeout := 89999 }.edgeTimeoutCoversAck = false := by
  decide

theorem test_edge_timeout_below_threshold :
    { Config.default with tEdgeTimeout := 35000 }.edgeTimeoutCoversThreshold = false := by decide

theorem test_cooldown_below_cycle : { Config.default with tCooldown := 36527000 }.cooldownCoversCycle = false := by decide

theorem test_threshold_not_documented : { Config.default with tBitThreshold := 35001 }.documented = false := by decide

theorem test_pin_32_refused :
    Config.build 32 Config.default = none ∧ (Config.build 31 Config.default).isSome = true := by decide

theorem test_no_command_word : commandWordWf 0b011 = false ∧ commandWordWf 0b100 = true := by decide

theorem test_no_state_code : stateCodeWf 0b1110000 = false ∧ stateCodeWf 0b1101111 = true := by decide

/-! ## Decode: every constructor, from words written out from R91 and from the `sc=` column of 95_test_vectors.md -/

theorem test_decode_commands :
    decodeCommand 0b100 = .ok .nop ∧ decodeCommand 0b101 = .ok .poll ∧ decodeCommand 0b110 = .ok .rsv2 ∧
      decodeCommand 0b111 = .ok .rsv3 ∧ decodeCommand 0b001 = .rejected .noCommand := by decide

theorem test_decode_start :
    decodeStateCode 0b0000000 = .ok .seqIdle ∧ decodeStateCode 0b0010000 = .ok .seqReqHigh ∧
      decodeStateCode 0b0010100 = .ok .seqReqLow ∧ decodeStateCode 0b0011000 = .ok .seqReqRelease ∧
      decodeStateCode 0b0011100 = .ok .seqTurnArm ∧ decodeStateCode 0b0011101 = .ok .seqTurnWait := by decide

theorem test_decode_response :
    decodeStateCode 0b0101101 = .ok .seqAckLow ∧ decodeStateCode 0b0111101 = .ok .seqAckHigh ∧
      decodeStateCode 0b1001101 = .ok .seqBitLow ∧ decodeStateCode 0b1001111 = .ok .seqBitHigh ∧
      decodeStateCode 0b1011100 = .ok .seqDone ∧ decodeStateCode 0b1101100 = .ok .seqFailed ∧
      decodeStateCode 0b1110000 = .rejected .unreachablePhase := by decide

theorem test_decode_table_words :
    decodeTableWord 3 0b101 = some .poll ∧ decodeTableWord 8 0b101 = some .poll ∧
      decodeTableWord 7 0b0000101 = some .seqIdle ∧ decodeTableWord 8 0b0011101 = some .seqTurnWait ∧
      decodeTableWord 8 0b1110000 = none ∧ decodeTableWord 8 0b10000000 = none := by decide

theorem test_fetch_word_poll :
    did (step (State.reset.withFetchWord 8 0b101)) =
      some ({ Regs.reset with phase := .requesting, haveLast := true }, .accepted, [.configure .output, .write true]) := by
  decide

theorem test_fetch_word_bit_high :
    fetch (State.reset.withFetchWord 8 0b1000010) = .ok .seqBitHigh ∧
      (step (State.reset.withFetchWord 8 0b1000010) matches .next _) = true := by decide

/-! ## Encoded words -/

theorem test_measurement_word : EdgeMeasurement.word ⟨true, 80000⟩ = 0x10000000000013880 := by decide

theorem test_field_codes :
    (∀ p ∈ [Phase.idle, .requesting, .awaitingResponseLow, .awaitingResponseHigh, .readingBits, .done, .failed],
        Phase.ofCode p.code = some p) ∧
      Phase.ofCode 7 = none ∧ Status.ofCode 6 = none ∧ Status.ofCode 5 = some .ioError ∧ Rsp.ofCode 5 = none ∧
      Rsp.ofCode 4 = some .illegal ∧ (∀ q ∈ [ReqStep.reqHigh, .reqLow, .reqRelease, .reqTurn], ReqStep.ofCode q.code = q) ∧
      Status.code .checksumMismatch = 3 ∧ Rsp.code .notReady = 2 ∧ Direction.code .output = 1 := by decide

/-- Format P: scenario A's report, and the report of scenario B. -/
theorem test_report_word :
    doneRegs.reportWord = 0x92D17 ∧ { doneRegs with status := .checksumMismatch }.reportWord = 0xB0000 := by decide

/-- V5, the checksum column. -/
theorem test_checksum :
    checksumOk 0x2D00170044 = true ∧ checksumOk 0x2D00170000 = false ∧ checksumOk 0xFFFFFFFFFC = true ∧
      checksumOk 0x0080808080 = true ∧ checksumOk 0x2803160243 = true ∧ checksumOk 0 = true := by decide

/-- V1: the deadline is strict, the level test first, the clock may wrap. -/
theorem test_edge_step :
    edgeStep turnRegs (smp 1020000 true) 20000 = .pending ∧ edgeStep turnRegs (smp 1020001 true) 20000 = .timeout ∧
      edgeStep turnRegs (smp 1020001 false) 20000 = .edge ⟨false, 20001⟩ ∧
      edgeStep turnRegs (smp 999999 true) 20000 = .timeout ∧
      edgeStep { ackLowRegs with tMark := -30000 } (smp 50000 true) 200000 = .edge ⟨true, 80000⟩ := by decide

/-- T8: a pin that never changes within 20 µs. -/
theorem test_wait_for_edge :
    waitForEdge 20000 Regs.reset [smp 0 true, smp 10000 true, smp 20000 true, smp 20001 true] = some .timeout ∧
      waitForEdge 20000 Regs.reset [smp 0 true, smp 10000 true] = none := by decide

/-! ## Single steps -/

/-- R216: `NOP` in `Done` answers `NONE` and changes nothing. -/
theorem test_nop : did (step (st doneRegs (cmdAt 500 0))) = some (doneRegs, .none, []) := by decide

/-- V6: exactly one second after the last gate-pass. -/
theorem test_poll_accepted :
    did (step (st doneRegs (cmdAt 1000000000 1))) =
      some ({ Regs.reset with
        phase := .requesting, tMark := 23702000, haveLast := true, lastTrigger := 1000000000 }, .accepted,
        [.configure .output, .write true]) := by decide

/-- V6: one nanosecond earlier. -/
theorem test_poll_not_ready :
    did (step (st doneRegs (cmdAt 999999999 1))) = some (doneRegs, .notReady, []) := by decide

theorem test_rsv2 : did (step (st doneRegs (cmdAt 1000000000 2))) = some (doneRegs, .illegal, []) := by decide

/-- A reserved command in a busy phase: the micro-operation runs. -/
theorem test_rsv3 :
    did (step (st bitLowRegs { cmdAt 3050000 3 with pinIn := true })) =
      some ({ bitLowRegs with half := true, refLevel := true, tMark := 3050000 }, .illegal, [.read]) := by decide

/-- V8, first row. -/
theorem test_idle_io_error :
    did (step (st Regs.reset (ioErrAt (cmdAt 0 1)))) =
      some ({ Regs.reset with phase := .failed, haveLast := true, status := .ioError }, .accepted,
        [.configure .output, .write true, .configure .output, .write true]) := by decide

theorem test_req_high :
    did (step (st highRegs (smp 1000 true))) = some (lowRegs, .none, [.write false]) := by decide

/-- V8, second row. -/
theorem test_req_high_io_error :
    did (step (st highRegs (ioErrAt (smp 1000 true)))) =
      some ({ highRegs with phase := .failed, status := .ioError }, .none,
        [.write false, .configure .output, .write true]) := by decide

/-- V11. -/
theorem test_req_low :
    did (step (st lowRegs (smp 20000999 true))) = some (lowRegs, .none, []) ∧
      did (step (st lowRegs (smp 20001000 true))) = some (releaseRegs, .none, [.write true]) := by decide

/-- P6. -/
theorem test_req_low_io_error :
    did (step (st lowRegs (ioErrAt (smp 20001000 true)))) =
      some ({ lowRegs with phase := .failed, status := .ioError, pinOut := true }, .none,
        [.write true, .configure .output, .write true]) := by decide

/-- V11. -/
theorem test_req_release :
    did (step (st releaseRegs (smp 20020999 true))) = some (releaseRegs, .none, []) ∧
      did (step (st releaseRegs (smp 20021000 true))) =
        some ({ releaseRegs with reqStep := .reqTurn, pinDir := .input }, .none, [.configure .input]) := by decide

/-- P1 at 20_022_000. -/
theorem test_turn_arm :
    did (step (st { releaseRegs with reqStep := .reqTurn, pinDir := .input } (smp 20022000 true))) =
      some ({ releaseRegs with
        reqStep := .reqTurn, pinDir := .input, armed := true, refLevel := true, tMark := 20022000 }, .none, [.read]) := by
  decide

/-- V2: inclusive at 20 µs, rejected after. -/
theorem test_turn_wait_fall :
    did (step (st turnRegs (smp 1020000 false))) =
        some ({ turnRegs with phase := .awaitingResponseLow, refLevel := false, tMark := 1020000 }, .none, [.read]) ∧
      did (step (st turnRegs (smp 1020001 false))) =
        some (failedRegs .timingViolation turnRegs, .none, [.read, .configure .output, .write true]) := by decide

/-- V2: a rising edge is rejected. -/
theorem test_turn_wait_rise :
    did (step (st { turnRegs with refLevel := false } (smp 1005000 true))) =
      some (failedRegs .timingViolation { turnRegs with refLevel := false }, .none,
        [.read, .configure .output, .write true]) := by decide

/-- V3: both ends of the window are in it. -/
theorem test_ack_low :
    did (step (st ackLowRegs (smp 2090000 true))) =
        some ({ ackLowRegs with phase := .awaitingResponseHigh, refLevel := true, tMark := 2090000 }, .none, [.read]) ∧
      did (step (st ackLowRegs (smp 2095000 true))) =
        some (failedRegs .timingViolation ackLowRegs, .none, [.read, .configure .output, .write true]) := by decide

/-- V3. -/
theorem test_ack_high :
    did (step (st ackHighRegs (smp 2040000 false))) =
        some ({ ackHighRegs with phase := .readingBits, refLevel := false, tMark := 2040000 }, .none, [.read]) ∧
      did (step (st ackHighRegs (smp 2200001 true))) =
        some (failedRegs .edgeTimeout ackHighRegs, .none, [.read, .configure .output, .write true]) := by decide

/-- V9 under both policies. -/
theorem test_bit_low_timeout :
    did (step (st bitLowRegs (smp 3200001 false))) =
        some ({ bitLowRegs with phase := .done, status := .checksumMismatch, armed := false }, .none, [.read]) ∧
      did (step { st bitLowRegs (smp 3200001 false) with cfg := abortCfg }) =
        some (failedRegs .edgeTimeout bitLowRegs, .none, [.read, .configure .output, .write true]) := by decide

/-- V4: 35_000 is a 0, 35_001 a 1. -/
theorem test_bit_high :
    did (step (st bitHighRegs (smp 3035000 false))) =
        some ({ bitHighRegs with frame := 0xA, bitCount := 4, half := false, refLevel := false, tMark := 3035000 }, .none,
          [.read]) ∧
      did (step (st bitHighRegs (smp 3035001 false))) =
        some ({ bitHighRegs with frame := 0xB, bitCount := 4, half := false, refLevel := false, tMark := 3035001 }, .none,
          [.read]) := by decide

/-- V5: the 40th bit. -/
theorem test_bit_high_last :
    did (step (st lastBitRegs (smp 3027000 false))) =
      some ({ lastBitRegs with
        frame := 0x2D00170044, bitCount := 40, half := false, refLevel := false, tMark := 3027000, phase := .done
        status := .valid, armed := false }, .none, [.read]) := by decide

theorem test_failed_waits : did (step (st failedState (smp 5 false))) = some (failedState, .none, []) := by decide

/-- V10. -/
theorem test_reset :
    did (step (st { bitHighRegs with lastTrigger := 5 } { ioErrAt (cmdAt 3000500 1) with rst := true })) =
      some (Regs.reset, .none, []) := by decide

/-- R101: an unreachable count. -/
theorem test_unreachable_count : did (step (st { bitLowRegs with bitCount := 41 } (smp 0 true))) = none := by decide

/-- R104: the trace line of P1's ACK-low edge. -/
theorem test_trace_line :
    traceLine (st ackLowRegs (smp 2080000 true)) =
      some { now := 2080000, pin := some true, command := none, ioErr := false, rsp := .none, microOp := some .seqAckLow
             actions := [.read], changed := [.tMark, .phase, .refLevel] } := by decide

/-! ## Witnesses: a state that meets the hypotheses of each obligation, for each of its clauses -/

theorem witness_StepRunsTheDecodedInstruction :
    (∃ s : State, s.sample.rst = false ∧ s.regs.bitCount.toNat ≤ 40 ∧ decodeCommand s.sample.commandWord = .ok .poll) ∧
      ∃ s : State, s.sample.rst = false ∧ s.regs.bitCount.toNat ≤ 40 ∧ s.sample.cmdValid = false ∧
        decodeStateCode s.regs.stateCode = .ok .seqDone :=
  ⟨⟨st lastBitRegs (cmdAt 3027000 1), by decide⟩, ⟨st doneRegs (smp 0 true), by decide⟩⟩

theorem witness_CommandViewAgreesWithMicroOpView :
    ∃ s : State, decodeCommand s.sample.commandWord = .ok .rsv2 ∧ decodeStateCode s.regs.stateCode = .ok .seqBitHigh :=
  ⟨st bitHighRegs (cmdAt 3035001 2), by decide⟩

theorem witness_StepMatchesConsolidatedListing :
    (∃ s : State, s.sample.rst = true) ∧ ∃ s : State, s.regs.bitCount.toNat = 40 :=
  ⟨⟨st Regs.reset { smp 0 true with rst := true }, by decide⟩, ⟨st doneRegs (smp 0 true), by decide⟩⟩

/-- Also for `EveryLegalStateSteps`, at the boundary, and its complement `UnreachableCountHasNoStep` on the next code. -/
theorem witness_UnreachableCountHasNoStep :
    (∃ s : State, s.regs.bitCount.toNat = 40) ∧
      (∃ s : State, s.regs.bitCount.toNat = 41 ∧ s.sample.rst = false) ∧
      ∃ s : State, s.regs.bitCount.toNat = 63 ∧ s.sample.rst = true :=
  ⟨⟨st doneRegs (smp 0 true), by decide⟩, ⟨st { doneRegs with bitCount := 41 } (smp 0 true), by decide⟩,
    ⟨st { doneRegs with bitCount := 63 } { smp 0 true with rst := true }, by decide⟩⟩

theorem witness_StepTakesOneSampleInstant : ∃ s t : State, step s = .next t :=
  ⟨st doneRegs (smp 0 true), { st doneRegs (smp 0 true) with inputs := [], instant := 1 }, step_of_next? (by decide)⟩

theorem witness_ResetStepLoadsEveryRegister : ∃ s : State, s.sample.rst = true :=
  ⟨st bitHighRegs { smp 0 true with rst := true }, by decide⟩

theorem witness_ResetLeavesNoReportAndAnOpenGate :
    ∃ (s t : State) (x : Input), s.sample.rst = true ∧ step s = .next t ∧ x.rst = false ∧ x.cmdValid = true ∧ x.cmd = 1 :=
  ⟨st doneRegs { smp 0 true with rst := true }, { State.reset with instant := 1 }, cmdAt 0 1, by decide,
    step_of_next? (by decide), by decide⟩

theorem witness_CommandAnswersInPriorityOrder :
    (∃ s : State, s.sample.cmdValid = false) ∧ (∃ s : State, s.sample.cmdValid = true ∧ s.sample.cmd = 0) ∧
      (∃ s : State, s.sample.cmdValid = true ∧ s.sample.cmd = 2) ∧
      (∃ s : State, s.sample.cmdValid = true ∧ s.sample.cmd = 3) ∧
      (∃ s : State, s.sample.cmdValid = true ∧ s.sample.cmd = 1 ∧ s.regs.busy = true) ∧
      (∃ s : State, s.sample.cmdValid = true ∧ s.sample.cmd = 1 ∧ s.regs.busy = false ∧
        gate s.cfg s.sample.now s.regs = true) ∧
      ∃ s : State, s.sample.cmdValid = true ∧ s.sample.cmd = 1 ∧ s.regs.busy = false ∧
        gate s.cfg s.sample.now s.regs = false :=
  ⟨⟨st doneRegs (smp 0 true), by decide⟩, ⟨st doneRegs (cmdAt 0 0), by decide⟩, ⟨st doneRegs (cmdAt 0 2), by decide⟩,
    ⟨st doneRegs (cmdAt 0 3), by decide⟩, ⟨st highRegs (cmdAt 0 1), by decide⟩,
    ⟨st doneRegs (cmdAt 1000000000 1), by decide⟩, ⟨st doneRegs (cmdAt 999999999 1), by decide⟩⟩

theorem witness_GatePassesFromOneSecondOn :
    ∃ (cfg : Config) (r : Regs), cfg.tCooldown = 1000000000 ∧ r.haveLast = true ∧ r.lastTrigger = 0 :=
  ⟨Config.default, doneRegs, by decide⟩

theorem witness_MidCycleCommandChangesOnlyTheAnswer : ∃ s : State, s.regs.busy = true ∧ s.regs.bitCount.toNat ≤ 40 :=
  ⟨st lastBitRegs (smp 3027000 false), by decide⟩

/-- For `NopActsAsNoCommand` and `ReservedCommandsAnswerIllegal`. -/
theorem witness_NopActsAsNoCommand : ∃ s : State, decodeStateCode s.regs.stateCode = .ok .seqAckLow :=
  ⟨st ackLowRegs (smp 2080000 true), by decide⟩

theorem witness_PollWhileBusyAnswersBusy :
    ∃ s : State, s.regs.busy = true ∧ decodeStateCode s.regs.stateCode = .ok .seqTurnWait :=
  ⟨st turnRegs (cmdAt 1020000 1), by decide⟩

theorem witness_PollNotReadyChangesNothing :
    ∃ s : State, s.regs.busy = false ∧ gate s.cfg s.sample.now s.regs = false :=
  ⟨st doneRegs (cmdAt 999999999 1), by decide⟩

/-- For `AcceptedPollStartsCycle` and `AcceptedPollWithIoErrorFails`, in each resting phase. -/
theorem witness_AcceptedPollStartsCycle :
    (∃ s : State, s.regs.phase = .idle ∧ s.regs.busy = false ∧ gate s.cfg s.sample.now s.regs = true ∧
        s.sample.ioErr = false) ∧
      (∃ s : State, s.regs.phase = .done ∧ s.regs.busy = false ∧ gate s.cfg s.sample.now s.regs = true ∧
        s.sample.ioErr = false) ∧
      ∃ s : State, s.regs.phase = .failed ∧ s.regs.busy = false ∧ gate s.cfg s.sample.now s.regs = true ∧
        s.sample.ioErr = true :=
  ⟨⟨st Regs.reset (cmdAt 0 1), by decide⟩, ⟨st doneRegs (cmdAt 1000000000 1), by decide⟩,
    ⟨st failedState (ioErrAt (cmdAt 1000000000 1)), by decide⟩⟩

theorem witness_LastTriggerMovesExactlyOnAcceptance :
    (∃ s t : State, s.sample.rst = false ∧ step s = .next t ∧ t.rsp = .accepted) ∧
      ∃ s t : State, s.sample.rst = false ∧ step s = .next t ∧ t.rsp ≠ .accepted :=
  ⟨⟨st Regs.reset (cmdAt 7 1), afterInstant (st Regs.reset (cmdAt 7 1)) .accepted (cycleStarted 7 Regs.reset)
      [.configure .output, .write true], by decide, step_of_next? (by decide), by decide⟩,
    ⟨st doneRegs (cmdAt 7 1), afterInstant (st doneRegs (cmdAt 7 1)) .notReady doneRegs [], by decide,
      step_of_next? (by decide), by decide⟩⟩

/-- The inputs of a retry: a `POLL` whose `Configure` fails, one a nanosecond too early, one in time. -/
def retry : State :=
  { State.reset with inputs := [ioErrAt (cmdAt 0 1), cmdAt 999999999 1, cmdAt 1000000000 1] }

/-- After the failed start of `retry`. -/
def retryFailed : State :=
  afterInstant retry .accepted (cycleRefusedByPort 0 Regs.reset)
    [.configure .output, .write true, .configure .output, .write true]

/-- After the early `POLL` of `retry`. -/
def retryEarly : State :=
  afterInstant retryFailed .notReady retryFailed.regs []

/-- After the accepted `POLL` of `retry`. -/
def retryStarted : State :=
  afterInstant retryEarly .accepted (cycleStarted 1000000000 retryEarly.regs) [.configure .output, .write true]

theorem witness_AcceptedPollsAreCooldownApart :
    ∃ (s t u v : State) (n : Nat), step s = .next t ∧ t.rsp = .accepted ∧
      (∀ k < n, ∃ w w', runSteps k t = .next w ∧ w.sample.rst = false ∧ step w = .next w' ∧ w'.rsp ≠ .accepted) ∧
      runSteps n t = .next u ∧ step u = .next v ∧ v.rsp = .accepted := by
  have h1 : step retry = .next retryFailed := step_of_next? (by decide)
  have h2 : step retryFailed = .next retryEarly := step_of_next? (by decide)
  have h3 : step retryEarly = .next retryStarted := step_of_next? (by decide)
  refine ⟨retry, retryFailed, retryEarly, retryStarted, 1, h1, by decide, ?_, ?_, h3, by decide⟩
  · intro k hk
    obtain rfl : k = 0 := by omega
    exact ⟨retryFailed, retryEarly, rfl, by decide, h2, by decide⟩
  · show Host.Core.run Sys2Proof.core 1 retryFailed = .next retryEarly
    simp only [Host.Core.run, show Sys2Proof.core.step retryFailed = .next retryEarly from h2]

theorem witness_RestingMicroOpsWaitForAcceptedPoll :
    (∃ s : State, s.regs.phase = .idle ∧ (commandAnswer s).accept = true ∧ s.sample.ioErr = false) ∧
      (∃ s : State, s.regs.phase = .done ∧ (commandAnswer s).accept = false) ∧
      ∃ s : State, s.regs.phase = .failed ∧ (commandAnswer s).accept = true ∧ s.sample.ioErr = true :=
  ⟨⟨st Regs.reset (cmdAt 0 1), by decide⟩, ⟨st doneRegs (cmdAt 999999999 1), by decide⟩,
    ⟨st failedState (ioErrAt (cmdAt 1000000000 1)), by decide⟩⟩

theorem witness_ReqHighBeginsLowPulse :
    (∃ s : State, s.regs.phase = .requesting ∧ s.regs.reqStep = .reqHigh ∧ s.sample.ioErr = false) ∧
      ∃ s : State, s.regs.phase = .requesting ∧ s.regs.reqStep = .reqHigh ∧ s.sample.ioErr = true :=
  ⟨⟨st highRegs (smp 1000 true), by decide⟩, ⟨st highRegs (ioErrAt (smp 1000 true)), by decide⟩⟩

theorem witness_ReqLowHoldsThenReleases :
    (∃ s : State, s.regs.phase = .requesting ∧ s.regs.reqStep = .reqLow ∧
        dur s.sample.now s.regs.tMark < s.cfg.tStartLow) ∧
      (∃ s : State, s.cfg.tStartLow = dur s.sample.now s.regs.tMark ∧ s.sample.ioErr = false) ∧
      ∃ s : State, s.cfg.tStartLow = dur s.sample.now s.regs.tMark ∧ s.sample.ioErr = true :=
  ⟨⟨st lowRegs (smp 20000999 true), by decide⟩, ⟨st lowRegs (smp 20001000 true), by decide⟩,
    ⟨st lowRegs (ioErrAt (smp 20001000 true)), by decide⟩⟩

theorem witness_ReqReleaseHoldsThenListens :
    (∃ s : State, s.regs.phase = .requesting ∧ s.regs.reqStep = .reqRelease ∧
        dur s.sample.now s.regs.tMark < s.cfg.tRelease) ∧
      (∃ s : State, s.cfg.tRelease = dur s.sample.now s.regs.tMark ∧ s.sample.ioErr = false) ∧
      ∃ s : State, s.cfg.tRelease = dur s.sample.now s.regs.tMark ∧ s.sample.ioErr = true :=
  ⟨⟨st releaseRegs (smp 20020999 true), by decide⟩, ⟨st releaseRegs (smp 20021000 true), by decide⟩,
    ⟨st releaseRegs (ioErrAt (smp 20021000 true)), by decide⟩⟩

theorem witness_TurnArmTakesTheEntrySample :
    ∃ s : State, s.regs.phase = .requesting ∧ s.regs.reqStep = .reqTurn ∧ s.regs.armed = false :=
  ⟨st { turnRegs with armed := false } (smp 1000000 true), by decide⟩

theorem witness_TurnWaitTimesTheFallingEdge :
    (∃ s : State, s.regs.phase = .requesting ∧ s.regs.reqStep = .reqTurn ∧ s.regs.armed = true ∧
        s.sample.pinIn = s.regs.refLevel ∧ dur s.sample.now s.regs.tMark = s.cfg.tTurnaround) ∧
      (∃ s : State, s.sample.pinIn = s.regs.refLevel ∧ dur s.sample.now s.regs.tMark = s.cfg.tTurnaround + 1) ∧
      (∃ s : State, s.sample.pinIn ≠ s.regs.refLevel ∧ s.sample.pinIn = false ∧
        dur s.sample.now s.regs.tMark = s.cfg.tTurnaround) ∧
      (∃ s : State, s.sample.pinIn ≠ s.regs.refLevel ∧
        ¬(s.sample.pinIn = false ∧ dur s.sample.now s.regs.tMark ≤ s.cfg.tTurnaround)) :=
  ⟨⟨st turnRegs (smp 1020000 true), by decide⟩, ⟨st turnRegs (smp 1020001 true), by decide⟩,
    ⟨st turnRegs (smp 1020000 false), by decide⟩, ⟨st turnRegs (smp 1020001 false), by decide⟩⟩

/-- The five cases of an ACK wait, for `AckLowTimesTheLowPulse`. -/
theorem witness_AckLowTimesTheLowPulse :
    (∃ s : State, s.regs.phase = .awaitingResponseLow ∧ s.sample.pinIn = s.regs.refLevel ∧
        dur s.sample.now s.regs.tMark = s.cfg.tEdgeTimeout) ∧
      (∃ s : State, s.regs.phase = .awaitingResponseLow ∧ s.sample.pinIn = s.regs.refLevel ∧
        dur s.sample.now s.regs.tMark = s.cfg.tEdgeTimeout + 1) ∧
      (∃ s : State, s.regs.phase = .awaitingResponseLow ∧ s.sample.pinIn ≠ s.regs.refLevel ∧
        dur s.sample.now s.regs.tMark = s.cfg.tAckMin ∧ dur s.sample.now s.regs.tMark ≤ s.cfg.tAckMax) ∧
      ∃ s : State, s.regs.phase = .awaitingResponseLow ∧ s.sample.pinIn ≠ s.regs.refLevel ∧
        dur s.sample.now s.regs.tMark = s.cfg.tAckMax + 1 :=
  ⟨⟨st ackLowRegs (smp 2200000 false), by decide⟩, ⟨st ackLowRegs (smp 2200001 false), by decide⟩,
    ⟨st ackLowRegs (smp 2040000 true), by decide⟩, ⟨st ackLowRegs (smp 2090001 true), by decide⟩⟩

/-- The same for `AckHighTimesTheHighPulse`. -/
theorem witness_AckHighTimesTheHighPulse :
    (∃ s : State, s.regs.phase = .awaitingResponseHigh ∧ s.sample.pinIn = s.regs.refLevel ∧
        dur s.sample.now s.regs.tMark = s.cfg.tEdgeTimeout) ∧
      (∃ s : State, s.regs.phase = .awaitingResponseHigh ∧ s.sample.pinIn = s.regs.refLevel ∧
        dur s.sample.now s.regs.tMark = s.cfg.tEdgeTimeout + 1) ∧
      (∃ s : State, s.regs.phase = .awaitingResponseHigh ∧ s.sample.pinIn ≠ s.regs.refLevel ∧
        s.cfg.tAckMin ≤ dur s.sample.now s.regs.tMark ∧ dur s.sample.now s.regs.tMark = s.cfg.tAckMax) ∧
      ∃ s : State, s.regs.phase = .awaitingResponseHigh ∧ s.sample.pinIn ≠ s.regs.refLevel ∧
        dur s.sample.now s.regs.tMark + 1 = s.cfg.tAckMin :=
  ⟨⟨st ackHighRegs (smp 2200000 true), by decide⟩, ⟨st ackHighRegs (smp 2200001 true), by decide⟩,
    ⟨st ackHighRegs (smp 2090000 false), by decide⟩, ⟨st ackHighRegs (smp 2039999 false), by decide⟩⟩

/-- The samples of a short start pulse after the accepted `POLL` at 0. -/
def pulse : List Input :=
  [smp 1000 true, smp 20000999 true, smp 20001000 true, smp 20020999 true, smp 20021000 true, smp 20022000 true]

/-- The accepted `POLL` before `pulse`. -/
def pulseStart : State :=
  { State.reset with inputs := cmdAt 0 1 :: pulse }

theorem witness_StartPulseSeenFromTheWire :
    ∃ (s t : State) (xs : Nat → Input) (c e : Nat), step s = .next t ∧ t.rsp = .accepted ∧ s.sample.ioErr = false ∧
      0 < c ∧ c < e ∧ (∀ k ≤ e + 1, t.inputs[k]? = some (xs k) ∧ (xs k).rst = false ∧ (xs k).ioErr = false) ∧
      (∀ k, 0 < k → k < c → dur (xs k).now (xs 0).now < s.cfg.tStartLow) ∧
      s.cfg.tStartLow ≤ dur (xs c).now (xs 0).now ∧
      (∀ k, c < k → k < e → dur (xs k).now (xs c).now < s.cfg.tRelease) ∧
      s.cfg.tRelease ≤ dur (xs e).now (xs c).now := by
  refine ⟨pulseStart, afterInstant pulseStart .accepted (cycleStarted 0 Regs.reset) [.configure .output, .write true],
    fun k => pulse.getD k Input.quiet, 2, 4, step_of_next? (by decide), by decide, by decide, by decide, by decide, ?_, ?_,
    by decide, ?_, by decide⟩
  · intro k hk
    have h : k = 0 ∨ k = 1 ∨ k = 2 ∨ k = 3 ∨ k = 4 ∨ k = 5 := by omega
    rcases h with rfl | rfl | rfl | rfl | rfl | rfl <;> decide
  · intro k h h'
    obtain rfl : k = 1 := by omega
    decide
  · intro k h h'
    obtain rfl : k = 3 := by omega
    decide

theorem witness_EdgeStepTestsLevelThenDeadline :
    (∃ (r : Regs) (x : Input), x.pinIn ≠ r.refLevel) ∧
      (∃ (r : Regs) (x : Input) (timeout : Time), x.pinIn = r.refLevel ∧ dur x.now r.tMark = timeout + 1 ∧
        timeout < dur x.now r.tMark) ∧
      ∃ (r : Regs) (x : Input) (timeout : Time), x.pinIn = r.refLevel ∧ dur x.now r.tMark = timeout :=
  ⟨⟨turnRegs, smp 1020001 false, by decide⟩, ⟨turnRegs, smp 1020001 true, 20000, by decide⟩,
    ⟨turnRegs, smp 1020000 true, 20000, by decide⟩⟩

theorem witness_BitLowWaitsOutTheLowHalf :
    (∃ s : State, s.regs.phase = .readingBits ∧ s.regs.half = false ∧ s.sample.pinIn = s.regs.refLevel ∧
        dur s.sample.now s.regs.tMark = s.cfg.tEdgeTimeout) ∧
      ∃ s : State, s.regs.phase = .readingBits ∧ s.regs.half = false ∧ s.sample.pinIn ≠ s.regs.refLevel :=
  ⟨⟨st bitLowRegs (smp 3200000 false), by decide⟩, ⟨st bitLowRegs (smp 3050000 true), by decide⟩⟩

theorem witness_BitHighShiftsInOneBit :
    (∃ s : State, s.regs.phase = .readingBits ∧ s.regs.half = true ∧ s.sample.pinIn = s.regs.refLevel ∧
        dur s.sample.now s.regs.tMark = s.cfg.tEdgeTimeout) ∧
      (∃ s : State, s.sample.pinIn ≠ s.regs.refLevel ∧ s.regs.bitCount = 38) ∧
      ∃ s : State, s.sample.pinIn ≠ s.regs.refLevel ∧ s.regs.bitCount = 39 :=
  ⟨⟨st bitHighRegs (smp 3200000 true), by decide⟩,
    ⟨st { lastBitRegs with bitCount := 38 } (smp 3027000 false), by decide⟩, ⟨st lastBitRegs (smp 3027000 false), by decide⟩⟩

theorem witness_BitTimeoutFollowsPolicy :
    (∃ s : State, s.sample.pinIn = s.regs.refLevel ∧ s.cfg.tEdgeTimeout < dur s.sample.now s.regs.tMark ∧
        s.cfg.bitTimeoutPolicy = .decoderInvalid) ∧
      ∃ s : State, s.sample.pinIn = s.regs.refLevel ∧ s.cfg.tEdgeTimeout < dur s.sample.now s.regs.tMark ∧
        s.cfg.bitTimeoutPolicy = .sequencerAbort :=
  ⟨⟨st bitLowRegs (smp 3200001 false), by decide⟩,
    ⟨{ st bitHighRegs (smp 3200001 true) with cfg := abortCfg }, by decide⟩⟩

theorem witness_BitValueIsTheThresholdTest : ∃ cfg : Config, cfg.tBitThreshold = 35000 :=
  ⟨Config.default, by decide⟩

/-- The samples of forty bit-periods with high halves of 70 µs. -/
def fortyBits (k : Nat) : Input :=
  smp (BitVec.ofNat 64 (60000 * k)) (decide (k % 2 = 0))

theorem witness_FortyBitPeriodsDeliverThePayload :
    ∃ (s : State) (xs : Nat → Input), s.regs.phase = .readingBits ∧ s.regs.half = false ∧ s.regs.refLevel = false ∧
      s.regs.bitCount = 0 ∧
      ∀ k < 80, s.inputs[k]? = some (xs k) ∧ (xs k).rst = false ∧ (xs k).pinIn = decide (k % 2 = 0) := by
  refine ⟨{ st { bitLowRegs with bitCount := 0, frame := 0 } (smp 0 true) with inputs := (List.range 80).map fortyBits },
    fortyBits, by decide, by decide, by decide, by decide, ?_⟩
  intro k hk
  refine ⟨?_, rfl, rfl⟩
  simp [hk]

/-- A step of `s` to `t`, without reset, from a running cycle. -/
def busyStepTo (s : State) (r : Regs) (acts : List Action) : Prop :=
  s.sample.rst = false ∧ s.regs.busy = true ∧ step s = .next (afterInstant s .none r acts)

/-- For `FailKeepsEveryOtherRegister` and `TimingViolationCauses`: a late rise at the end of ACK low. -/
theorem witness_FailKeepsEveryOtherRegister :
    busyStepTo (st ackLowRegs (smp 2090001 true)) (failedRegs .timingViolation ackLowRegs)
      [.read, .configure .output, .write true] :=
  ⟨by decide, by decide, step_of_next? (by decide)⟩

/-- For `EdgeTimeoutCauses`, in the turnaround wait and in a bit wait. -/
theorem witness_EdgeTimeoutCauses :
    busyStepTo (st turnRegs (smp 1020001 true)) (failedRegs .edgeTimeout turnRegs)
        [.read, .configure .output, .write true] ∧
      busyStepTo { st bitLowRegs (smp 3200001 false) with cfg := abortCfg } (failedRegs .edgeTimeout bitLowRegs)
        [.read, .configure .output, .write true] :=
  ⟨⟨by decide, by decide, step_of_next? (by decide)⟩, ⟨by decide, by decide, step_of_next? (by decide)⟩⟩

theorem witness_ChecksumMismatchCauses :
    busyStepTo (st bitLowRegs (smp 3200001 false))
        { bitLowRegs with phase := .done, status := .checksumMismatch, armed := false } [.read] ∧
      busyStepTo (st lastBitRegs (smp 3070000 false))
        { lastBitRegs with
          frame := 0x2D00170045, bitCount := 40, half := false, refLevel := false, tMark := 3070000, phase := .done
          status := .checksumMismatch, armed := false } [.read] :=
  ⟨⟨by decide, by decide, step_of_next? (by decide)⟩, ⟨by decide, by decide, step_of_next? (by decide)⟩⟩

theorem witness_IoErrorOnlyAtFailableActions :
    (∃ s : State, s.sample.rst = false ∧ s.regs.bitCount.toNat ≤ 40 ∧ s.issuesFailable = true ∧ s.sample.ioErr = true) ∧
      ∃ s : State, s.sample.rst = false ∧ s.regs.bitCount.toNat ≤ 40 ∧ s.issuesFailable = false :=
  ⟨⟨st lowRegs (ioErrAt (smp 20001000 true)), by decide⟩, ⟨st lowRegs (ioErrAt (smp 20000999 true)), by decide⟩⟩

/-- For `PhaseChangesOnlyAlongArrows`, `RegistersChangeOnlyByTheirWriters` and `PinRegistersFollowTheActions`: a step of a
running cycle and a start. -/
theorem witness_PhaseChangesOnlyAlongArrows :
    busyStepTo (st turnRegs (smp 1020000 false))
        { turnRegs with phase := .awaitingResponseLow, refLevel := false, tMark := 1020000 } [.read] ∧
      (st doneRegs (cmdAt 1000000000 1)).regs.busy = false ∧
      step (st doneRegs (cmdAt 1000000000 1)) =
        .next (afterInstant (st doneRegs (cmdAt 1000000000 1)) .accepted (cycleStarted 1000000000 doneRegs)
          [.configure .output, .write true]) :=
  ⟨⟨by decide, by decide, step_of_next? (by decide)⟩, by decide, step_of_next? (by decide)⟩

theorem witness_PinInputIgnoredUnlessRead :
    (∃ s : State, s.regs.phase = .done ∧ s.regs.readsPin = false) ∧
      ∃ s : State, s.regs.reqStep = .reqRelease ∧ s.regs.phase = .requesting ∧ s.regs.readsPin = false :=
  ⟨⟨st doneRegs (smp 0 true), by decide⟩, ⟨st releaseRegs (smp 20021000 true), by decide⟩⟩

theorem witness_ClockIgnoredAtRestWithoutPoll :
    ∃ s : State, s.regs.busy = false ∧ decodeCommand s.sample.commandWord ≠ .ok .poll :=
  ⟨st doneRegs (cmdAt 0 0), by decide⟩

theorem witness_ReportStandsUntilAcceptedPoll :
    ∃ s : State, s.regs.phase = .done ∧ s.sample.rst = false ∧ s.regs.bitCount.toNat ≤ 40 ∧
      (commandAnswer s).accept = false :=
  ⟨st doneRegs (cmdAt 999999999 1), by decide⟩

theorem witness_OutputsAreR37 : (∃ s : State, s.regs.status = .valid) ∧ ∃ s : State, s.regs.status ≠ .valid :=
  ⟨⟨st doneRegs (smp 0 true), by decide⟩, ⟨st failedState (smp 0 true), by decide⟩⟩

theorem doneRegs_inv : doneRegs.inv := by
  refine ⟨⟨?_, ?_, ?_, ?_, ?_, ?_, ?_, ?_, ?_, ?_, ?_⟩, ?_, ?_, ?_⟩ <;> decide

theorem witness_EveryStepKeepsTheInvariant : ∃ s t : State, s.regs.inv ∧ step s = .next t :=
  ⟨st doneRegs (cmdAt 1000000000 1), afterInstant (st doneRegs (cmdAt 1000000000 1)) .accepted
    (cycleStarted 1000000000 doneRegs) [.configure .output, .write true], doneRegs_inv, step_of_next? (by decide)⟩

theorem witness_CycleEndsWithinItsBound :
    ∃ (s t : State) (gap n : Nat) (x : Input), step s = .next t ∧ t.rsp = .accepted ∧
      s.cfg.longestCycle gap < 2 ^ 64 ∧ gapsAtMost gap s.sample.now t.inputs ∧
      (∀ k ≤ n, ∃ w, runSteps k t = .next w ∧ w.regs.busy = true) ∧ t.inputs[n]? = some x := by
  refine ⟨{ State.reset with inputs := [cmdAt 0 1, smp 1000 true] },
    afterInstant { State.reset with inputs := [cmdAt 0 1, smp 1000 true] } .accepted (cycleStarted 0 Regs.reset)
      [.configure .output, .write true], 1000, 0, smp 1000 true, step_of_next? (by decide), by decide, by decide,
    ⟨by decide, trivial⟩, ?_, by decide⟩
  intro k hk
  obtain rfl : k = 0 := by omega
  exact ⟨_, rfl, by decide⟩

/-! ### Unending runs -/

/-- Instant `n` of a run on which the state `s` meets the sample `x` at 0 and the resting state `t`, with the counter set,
ever after, one sample every microsecond, the line at `wire`. -/
def thenRests (s : State) (x : Input) (t : State) (wire : Level) (port₀ port : Port) : Nat → Instant
  | 0 => { state := s, sample := x, port := port₀, wire := wire, requests := [] }
  | n + 1 =>
    { state := { t with instant := n + 1, actions := if n = 0 then t.actions else [] }
      sample := smp (x.now + BitVec.ofNat 64 (1000 * (n + 1))) wire
      port := port
      wire := wire
      requests := [] }

theorem thenRests_isTrace (s : State) (x : Input) (t : State) (wire : Level) (p q : Port)
    (h : step (s.withSample x) = .next t) (hi : t.instant = 1) (hl : t.inputs = []) (hr : t.rsp = .none)
    (hb : t.regs.busy = false) (hc : t.regs.bitCount.toNat ≤ 40) : isTrace (thenRests s x t wire p q) := by
  intro n
  cases n with
  | zero =>
    refine h.trans ?_
    obtain ⟨cfg, regs, inputs, instant, rsp, acts⟩ := t
    cases hi
    rfl
  | succ n =>
    refine (step_of_not_rst _ rfl (by exact hc)).trans ?_
    rw [restEffect_of_not_busy _ _ _ _ (by exact hb), commandAnswer_of_not_valid _ rfl]
    obtain ⟨cfg, regs, inputs, instant, rsp, acts⟩ := t
    cases hl
    cases hr
    rfl

theorem thenRests_gap (s : State) (x : Input) (t : State) (wire : Level) (p q : Port) (n : Nat) :
    sampleGap (thenRests s x t wire p q) n = 1000 := by
  cases n with
  | zero => simp [sampleGap, thenRests, dur, smp]
  | succ n =>
    have h : BitVec.ofNat 64 (1000 * (n + 1 + 1)) = BitVec.ofNat 64 (1000 * (n + 1)) + 1000 := by
      rw [Nat.mul_add 1000 (n + 1) 1, BitVec.ofNat_add]
      rfl
    simp only [sampleGap, thenRests, dur, smp, h]
    have h' : ∀ a b : BitVec 64, a + (b + 1000) - (a + b) = 1000 := by intro a b; bv_omega
    rw [h']
    rfl

theorem thenRests_progress (s : State) (x : Input) (t : State) (wire : Level) (p q : Port) :
    clockProgress (thenRests s x t wire p q) := by
  intro i d
  refine ⟨d + 1, by omega, ?_⟩
  have h : ∀ k, elapsed (thenRests s x t wire p q) i k = 1000 * k := by
    intro k
    induction k with
    | zero => rfl
    | succ k ih => rw [elapsed_succ, ih, thenRests_gap]; omega
  rw [h]
  omega

/-- The turnaround wait of V2, to be ended by its deadline. -/
def waiting : State :=
  { State.reset with regs := turnRegs }

/-- After that deadline. -/
def gaveUp : State :=
  { State.reset with
    regs := failedRegs .edgeTimeout turnRegs, actions := [.read, .configure .output, .write true], instant := 1 }

/-- The run of the two: the port follows the registers, the line stays high. -/
def gaveUpRun : Nat → Instant :=
  thenRests waiting (smp 1020001 true) gaveUp true ⟨.input, true⟩ ⟨.output, true⟩

theorem gaveUpRun_isTrace : isTrace gaveUpRun :=
  thenRests_isTrace _ _ _ _ _ _ (step_of_next? (by decide)) rfl rfl rfl rfl (by decide)

theorem gaveUpRun_neverReset : neverReset gaveUpRun := by
  intro i
  cases i <;> rfl

/-- A reset in the middle of the low pulse: the line stays low. -/
def resetMidPulse : Nat → Instant :=
  thenRests { State.reset with regs := lowRegs } { smp 5000 false with rst := true } { State.reset with instant := 1 } false
    ⟨.output, false⟩ ⟨.output, false⟩

/-- The premises R270 of a run without reset, all together. -/
theorem gaveUpRun_environment :
    pinExclusive gaveUpRun ∧ gpioPortCorrect gaveUpRun ∧ oneHost gaveUpRun ∧ clockProgress gaveUpRun ∧
      clockNonDecreasing gaveUpRun ∧ samplingResolution gaveUpRun ∧ pinValid gaveUpRun := by
  have effect : actionsTakeEffect gaveUpRun := by
    intro i _
    match i with
    | 0 => rfl
    | n + 1 => rfl
  refine ⟨fun i => ⟨issued gaveUpRun i, List.Sublist.refl _, effect i ?_⟩, ⟨effect, ?_, ?_⟩, ?_,
    thenRests_progress _ _ _ _ _ _, .inr ?_, ?_, pinValid_of_isTrace _ gaveUpRun_isTrace⟩
  · cases i <;> rfl
  · intro i h
    cases i
    · cases h
    · rfl
  · intro i _
    cases i <;> rfl
  · intro i
    cases i <;> rfl
  · intro i
    rw [show sampleGap gaveUpRun i = 1000 from thenRests_gap _ _ _ _ _ _ _]
    decide
  · intro i h
    cases i <;> cases h

theorem witness_PortFollowsTheActions :
    (∃ (tr : Nat → Instant) (i : Nat), isTrace tr ∧ pinExclusive tr ∧ (tr i).sample.rst = true ∧
        (tr (i + 1)).state.regs.pinOut ≠ (tr (i + 1)).port.out) ∧
      ∃ tr : Nat → Instant, isTrace tr ∧ gpioPortCorrect tr ∧ neverReset tr ∧ (∀ i, (tr i).sample.ioErr = false) ∧
        (tr 0).port = { dir := (tr 0).state.regs.pinDir, out := (tr 0).state.regs.pinOut } ∧
        (tr 0).state.regs.pinDir = .input ∧ (tr 1).state.regs.pinDir = .output := by
  refine ⟨⟨resetMidPulse, 0, thenRests_isTrace _ _ _ _ _ _ (step_of_next? (by decide)) rfl rfl rfl rfl (by decide), ?_,
    rfl, by decide⟩, ⟨gaveUpRun, gaveUpRun_isTrace, gaveUpRun_environment.2.1, gaveUpRun_neverReset, ?_, rfl, rfl, rfl⟩⟩
  · intro i
    exact ⟨[], List.nil_sublist _, by cases i <;> rfl⟩
  · intro i
    cases i <;> rfl

theorem witness_EveryCycleEndsUnderClockProgress :
    ∃ (tr : Nat → Instant) (i : Nat), isTrace tr ∧ neverReset tr ∧ clockProgress tr ∧ gapsBelowHalf tr ∧
      (tr i).state.cfg.tStartLow.toNat < 2 ^ 63 ∧ (tr i).state.cfg.tRelease.toNat < 2 ^ 63 ∧
      (tr i).state.cfg.tTurnaround.toNat < 2 ^ 63 ∧ (tr i).state.cfg.tEdgeTimeout.toNat < 2 ^ 63 ∧
      (tr i).state.regs.busy = true := by
  refine ⟨gaveUpRun, 0, gaveUpRun_isTrace, gaveUpRun_neverReset, thenRests_progress _ _ _ _ _ _, ?_, by decide, by decide,
    by decide, by decide, by decide⟩
  intro i
  rw [show sampleGap gaveUpRun i = 1000 from thenRests_gap _ _ _ _ _ _ _]
  decide

end Sys2Proof.Tests
end

/-! # Proofs for the statements of 00_scope.md: what a step keeps, and which registers it writes -/

namespace Sys2Proof.Machine

/-! ## The registers that change -/

/-- A register is listed as changed exactly when its value differs. -/
@[simp] theorem mem_changedRegisters (g : Register) (r r' : Regs) :
    g ∈ changedRegisters r r' ↔ g.same r r' = false := by
  have hall : g ∈ Register.all := by cases g <;> decide
  simp [changedRegisters, hall]

/-- A register has the value it has. -/
@[simp] theorem Register.same_self (g : Register) (r : Regs) : g.same r r = true := by
  cases g <;> exact beq_self_eq_true _

/-- Two updates that keep a register keep it together. -/
theorem Register.same_trans {g : Register} {r r' r'' : Regs} (h : g.same r r' = true) (h' : g.same r' r'' = true) :
    g.same r r'' = true := by
  cases g <;> exact beq_iff_eq.mpr ((beq_iff_eq.mp h).trans (beq_iff_eq.mp h'))

/-- The changes lie in a set exactly when every register is in it or kept. -/
theorem changedRegisters_subset_iff (ws : List Register) (r r' : Regs) :
    changedRegisters r r' ⊆ ws ↔ ∀ g, g ∈ ws ∨ g.same r r' = true := by
  refine forall_congr' fun g => ?_
  rw [mem_changedRegisters, ← Bool.not_eq_true, ← or_iff_not_imp_left, or_comm]

/-- An update that writes nothing changes nothing. -/
theorem changedRegisters_self_subset (ws : List Register) (r : Regs) : changedRegisters r r ⊆ ws :=
  (changedRegisters_subset_iff ws r r).mpr fun g => .inr (g.same_self r)

/-- What two updates in turn change lies in a set that holds the changes of each. -/
theorem changedRegisters_subset_trans {ws : List Register} {r r' r'' : Regs} (h : changedRegisters r r' ⊆ ws)
    (h' : changedRegisters r' r'' ⊆ ws) : changedRegisters r r'' ⊆ ws := by
  rw [changedRegisters_subset_iff] at *
  intro g
  obtain hg | hg := h g
  · exact .inl hg
  · exact (h' g).imp_right (Register.same_trans hg)

/-! ## What the shared operations write -/

/-- The five registers `raise Fail` writes (R236). -/
def failWrites : List Register :=
  [.phase, .status, .armed, .pinDir, .pinOut]

theorem fail_changes (code : Failure) (as : List Action) (r : Regs) :
    changedRegisters r (fail code as r).regs ⊆ failWrites :=
  (changedRegisters_subset_iff _ _ _).mpr fun g => by cases g <;> simp [Register.same, failWrites]

theorem arm_changes (x : Input) (r : Regs) : changedRegisters r (arm x r) ⊆ [.tMark, .refLevel, .armed] :=
  (changedRegisters_subset_iff _ _ _).mpr fun g => by cases g <;> simp [Register.same]

theorem takeBit_changes (cfg : Config) (x : Input) (d : Time) (r : Regs) :
    changedRegisters r (takeBit cfg x d r) ⊆ [.tMark, .refLevel, .frame, .bitCount, .half] :=
  (changedRegisters_subset_iff _ _ _).mpr fun g => by cases g <;> simp [Register.same]

theorem finish_changes (f : Frame) (r : Regs) : changedRegisters r (finish f r) ⊆ [.phase, .armed, .status] :=
  (changedRegisters_subset_iff _ _ _).mpr fun g => by cases g <;> simp [Register.same]

theorem clearForCycle_changes (now : Time) (r : Regs) :
    changedRegisters r (clearForCycle now r) ⊆ [.lastTrigger, .haveLast, .frame, .bitCount, .half, .armed, .status] :=
  (changedRegisters_subset_iff _ _ _).mpr fun g => by cases g <;> simp [Register.same]

/-! The register updates that the micro-operations write out in place. -/

theorem rearm_setPhase_changes (x : Input) (r : Regs) (p : Phase) :
    changedRegisters r { rearm x r with phase := p } ⊆ [.tMark, .refLevel, .phase] :=
  (changedRegisters_subset_iff _ _ _).mpr fun g => by cases g <;> simp [Register.same]

theorem rearm_setHalf_changes (x : Input) (r : Regs) (b : Bool) :
    changedRegisters r { rearm x r with half := b } ⊆ [.tMark, .refLevel, .half] :=
  (changedRegisters_subset_iff _ _ _).mpr fun g => by cases g <;> simp [Register.same]

theorem drivePin_changes (r : Regs) (b : Level) (now : Time) (q : ReqStep) :
    changedRegisters r { r with pinOut := b, tMark := now, reqStep := q } ⊆ [.tMark, .reqStep, .pinOut] :=
  (changedRegisters_subset_iff _ _ _).mpr fun g => by cases g <;> simp [Register.same]

theorem switchPin_changes (r : Regs) (d : Direction) (a : Bool) (q : ReqStep) :
    changedRegisters r { r with pinDir := d, armed := a, reqStep := q } ⊆ [.pinDir, .armed, .reqStep] :=
  (changedRegisters_subset_iff _ _ _).mpr fun g => by cases g <;> simp [Register.same]

theorem endCycle_changes (r : Regs) (p : Phase) (st : Status) (a : Bool) :
    changedRegisters r { r with phase := p, status := st, armed := a } ⊆ [.phase, .status, .armed] :=
  (changedRegisters_subset_iff _ _ _).mpr fun g => by cases g <;> simp [Register.same]

theorem enterRequesting_changes (r : Regs) (q : ReqStep) (d : Direction) (b : Level) :
    changedRegisters r { r with phase := .requesting, reqStep := q, pinDir := d, pinOut := b } ⊆
      [.phase, .reqStep, .pinDir, .pinOut] :=
  (changedRegisters_subset_iff _ _ _).mpr fun g => by cases g <;> simp [Register.same]

/-! ## The access summary, micro-operation by micro-operation -/

/-- The start of a cycle, refused by the port or not, changes only what R40 lets an accepted `POLL` write. -/
theorem startCycle_changes (x : Input) (r : Regs) : changedRegisters r (startCycle x r).regs ⊆ acceptWrites := by
  have hclear : changedRegisters r (clearForCycle x.now r) ⊆ acceptWrites :=
    List.Subset.trans (clearForCycle_changes x.now r) (by decide)
  refine changedRegisters_subset_trans hclear ?_
  obtain ⟨-, h⟩ | ⟨-, h⟩ := startCycle_cases x r <;> rw [h]
  · exact List.Subset.trans (fail_changes _ _ _) (by decide)
  · exact List.Subset.trans (enterRequesting_changes _ _ _ _) (by decide)

/-- The micro-operations of the two response waits have one row of R40's table. -/
theorem busyWrites_of_ack {p : Phase} (q : ReqStep) (half armed : Bool)
    (hp : p = .awaitingResponseLow ∨ p = .awaitingResponseHigh) :
    busyWrites (selectedOp p q half armed) = busyWrites .seqAckLow := by
  obtain rfl | rfl := hp <;> rfl

/-- What `SEQ.BIT_LOW` may write, `SEQ.BIT_HIGH` may write too. -/
theorem bitLowWrites_subset (q : ReqStep) (half armed : Bool) :
    busyWrites .seqBitLow ⊆ busyWrites (selectedOp .readingBits q half armed) := by
  cases half <;> simp only [selectedOp] <;> decide

/-- R40 while a cycle runs: whatever a micro-operation does, it changes only registers of its row. -/
theorem BusyEffect.changes {cfg : Config} {x : Input} {r : Regs} {e : Effect} (h : BusyEffect cfg x r e) :
    changedRegisters r e.regs ⊆ busyWrites (selectedOp r.phase r.reqStep r.half r.armed) := by
  generalize hw : busyWrites (selectedOp r.phase r.reqStep r.half r.armed) = ws
  cases h with
  | holdsLow | holdsHigh | turnPending | ackPending | bitPending => exact changedRegisters_self_subset _ _
  | portRefusesLow hp hq | portRefusesHigh hp hq | portRefusesInput hp hq =>
    simp only [selectedOp, hp, hq] at hw
    subst hw
    exact List.Subset.trans (fail_changes _ _ _) (by decide)
  | turnTimeout hp hq ha | turnRejected hp hq ha =>
    simp only [selectedOp, hp, hq, ha, if_true] at hw
    subst hw
    exact List.Subset.trans (fail_changes _ _ _) (by decide)
  | ackTimeout hp | ackRejected hp =>
    rw [busyWrites_of_ack _ _ _ hp] at hw
    subst hw
    exact List.Subset.trans (fail_changes _ _ _) (by decide)
  | bitTimeoutAbort hp =>
    rw [hp] at hw
    subst hw
    exact List.Subset.trans (List.Subset.trans (fail_changes _ _ _) (by decide)) (bitLowWrites_subset _ _ _)
  | drivesLow hp hq | drivesHigh hp hq =>
    simp only [selectedOp, hp, hq] at hw
    subst hw
    exact List.Subset.trans (drivePin_changes _ _ _ _) (by decide)
  | switchesToInput hp hq =>
    simp only [selectedOp, hp, hq] at hw
    subst hw
    exact List.Subset.trans (switchPin_changes _ _ _ _) (by decide)
  | arms hp hq ha =>
    simp only [selectedOp, hp, hq, ha, if_false, Bool.false_eq_true] at hw
    subst hw
    exact List.Subset.trans (arm_changes _ _) (by decide)
  | turnAccepted hp hq ha =>
    simp only [selectedOp, hp, hq, ha, if_true] at hw
    subst hw
    exact List.Subset.trans (rearm_setPhase_changes _ _ _) (by decide)
  | ackLowAccepted hp | ackHighAccepted hp =>
    simp only [selectedOp, hp] at hw
    subst hw
    exact List.Subset.trans (rearm_setPhase_changes _ _ _) (by decide)
  | bitTimeoutInvalid hp =>
    rw [hp] at hw
    subst hw
    exact List.Subset.trans (List.Subset.trans (endCycle_changes _ _ _ _) (by decide)) (bitLowWrites_subset _ _ _)
  | lowHalfEnds hp hh =>
    simp only [selectedOp, hp, hh, if_false, Bool.false_eq_true] at hw
    subst hw
    exact List.Subset.trans (rearm_setHalf_changes _ _ _) (by decide)
  | bitTaken hp hh =>
    simp only [selectedOp, hp, hh, if_true] at hw
    subst hw
    exact List.Subset.trans (takeBit_changes _ _ _ _) (by decide)
  | lastBitTaken hp hh =>
    simp only [selectedOp, hp, hh, if_true] at hw
    subst hw
    exact changedRegisters_subset_trans (List.Subset.trans (takeBit_changes _ _ _ r) (by decide))
      (List.Subset.trans (finish_changes _ _) (by decide))

/-- R40 for a whole instant: with `accept`, which a running cycle never has, the registers of an accepted `POLL`, and
without it those of the selected micro-operation. -/
theorem effectByFields_changes {accept : Bool} (cfg : Config) (x : Input) {r : Regs}
    (ha : r.busy = true → accept = false) :
    changedRegisters r (effectByFields accept cfg x r).regs ⊆
      if accept = true then acceptWrites else busyWrites (selectedOp r.phase r.reqStep r.half r.armed) := by
  cases hb : r.busy with
  | true =>
    rw [ha hb, if_neg Bool.false_ne_true]
    exact (busyEffect_of_busy false cfg x r hb).changes
  | false =>
    rw [restEffect_of_not_busy accept cfg x r hb]
    cases accept with
    | true => exact startCycle_changes x r
    | false => exact changedRegisters_self_subset _ r

/-! ## The obligations -/

/-- Settles O49: a step without reset is the effect of the selected micro-operation, and `accept` is the answer
`ACCEPTED`. -/
theorem registersChangeOnlyByTheirWriters : Obligations.RegistersChangeOnlyByTheirWriters := by
  intro s t m hr h hm
  obtain ⟨hr', -⟩ | ⟨-, -, rfl⟩ := step_cases h
  · rw [hr] at hr'
    cases hr'
  · rw [decodeStateCode_stateCode] at hm
    cases hm
    simp only [commit_regs, commit_rsp, ← commandAnswer_accept_iff]
    exact fun g hg => effectByFields_changes s.cfg s.sample (commandAnswer_accept_of_busy s) hg

/-- Settles O11: a reset and an instant without one both end in `commit`, which consumes the sample and keeps the
configuration. -/
theorem stepTakesOneSampleInstant : Obligations.StepTakesOneSampleInstant := by
  intro s t h
  obtain ⟨-, rfl⟩ | ⟨-, -, rfl⟩ := step_cases h
  · exact ⟨resetStep_cfg s, resetStep_inputs s, resetStep_instant s⟩
  · exact ⟨commit_cfg s _ _, commit_inputs s _ _, commit_instant s _ _⟩

end Sys2Proof.Machine

/-! # Proofs for the statements of 10_state.md: the invariant, the pin registers and the port, the outputs -/

namespace Sys2Proof.Machine

/-! ## The invariant, phase by phase -/

/-- A cycle that was begun and has no outcome yet. -/
def Regs.cycleOpen (r : Regs) : Prop :=
  r.haveLast = true ∧ r.status = .none

/-- The decoder as an accepted `POLL` leaves it (R214). -/
def Regs.decoderClear (r : Regs) : Prop :=
  r.half = false ∧ r.bitCount = 0 ∧ r.frame = 0

/-- The pin through the sub-steps of the request: driven low in `reqLow` alone, released in `reqTurn` alone, and no wait
armed before `reqTurn`. -/
def Regs.requestPins (r : Regs) : Prop :=
  (r.reqStep ≠ .reqTurn → r.pinDir = .output ∧ r.armed = false) ∧ (r.reqStep = .reqTurn → r.pinDir = .input) ∧
    (r.pinOut = false ↔ r.reqStep = .reqLow)

/-- The pin configured as `d`, its level written high, and the EdgeTimer armed or not. -/
def Regs.pinHigh (d : Direction) (a : Bool) (r : Regs) : Prop :=
  r.armed = a ∧ r.pinDir = d ∧ r.pinOut = true

/-- The invariant as a table over the phases, but for the bound on the frame. -/
def Regs.phaseInv (r : Regs) : Prop :=
  match r.phase with
  | .idle => r.status = .none ∧ r.pinHigh .output false ∧ r.bitCount.toNat < 40
  | .requesting => r.cycleOpen ∧ r.decoderClear ∧ r.requestPins
  | .awaitingResponseLow => r.cycleOpen ∧ r.decoderClear ∧ r.pinHigh .input true ∧ r.refLevel = false
  | .awaitingResponseHigh => r.cycleOpen ∧ r.decoderClear ∧ r.pinHigh .input true ∧ r.refLevel = true
  | .readingBits => r.cycleOpen ∧ r.bitCount.toNat < 40 ∧ r.pinHigh .input true ∧ r.refLevel = r.half
  | .done =>
    r.haveLast = true ∧ r.pinHigh .input false ∧ r.bitCount.toNat ≤ 40 ∧
      (r.status = .checksumMismatch ∨ r.status = .valid ∧ r.bitCount.toNat = 40 ∧ checksumOk r.frame = true)
  | .failed =>
    r.haveLast = true ∧ r.pinHigh .output false ∧ r.bitCount.toNat < 40 ∧
      (r.status = .edgeTimeout ∨ r.status = .timingViolation ∨ r.status = .ioError)

/-- The clauses of R41 and the three added to them say, phase by phase, what the table says: with the phase fixed a clause
is void or about the other registers, and fewer than forty bits is at most forty and not forty. -/
theorem inv_iff (r : Regs) : r.inv ↔ r.phaseInv ∧ r.frameHoldsCountedBits := by
  unfold Regs.phaseInv
  cases hp : r.phase <;>
    simp only [hp, Regs.inv, Regs.r41, Regs.phaseIsState, Regs.countBounded, Regs.fullCountIsDone,
      Regs.listeningIsArmedInput, Regs.listening, Regs.refLevelFollowsPhase, Regs.requestPinState,
      Regs.statusFollowsPhase, Regs.noPassIsIdle, Regs.restPinState, Regs.restNotArmed, Regs.validIsComplete,
      Regs.decoderClearBeforeBits, Regs.startPulseNotArmed, Regs.busy, Phase.isBusy, Phase.code, Regs.cycleOpen,
      Regs.decoderClear, Regs.requestPins, Regs.pinHigh] <;>
    grind

/-! The rows of the table for the phases of a running cycle. -/

theorem phaseInv_requesting {r : Regs} (hp : r.phase = .requesting) :
    r.phaseInv ↔ r.cycleOpen ∧ r.decoderClear ∧ r.requestPins := by
  rw [Regs.phaseInv, hp]

theorem phaseInv_ackLow {r : Regs} (hp : r.phase = .awaitingResponseLow) :
    r.phaseInv ↔ r.cycleOpen ∧ r.decoderClear ∧ r.pinHigh .input true ∧ r.refLevel = false := by
  rw [Regs.phaseInv, hp]

theorem phaseInv_ackHigh {r : Regs} (hp : r.phase = .awaitingResponseHigh) :
    r.phaseInv ↔ r.cycleOpen ∧ r.decoderClear ∧ r.pinHigh .input true ∧ r.refLevel = true := by
  rw [Regs.phaseInv, hp]

theorem phaseInv_reading {r : Regs} (hp : r.phase = .readingBits) :
    r.phaseInv ↔ r.cycleOpen ∧ r.bitCount.toNat < 40 ∧ r.pinHigh .input true ∧ r.refLevel = r.half := by
  rw [Regs.phaseInv, hp]

/-- A clear decoder has counted fewer than forty bits. -/
theorem Regs.decoderClear.count_lt {r : Regs} (h : r.decoderClear) : r.bitCount.toNat < 40 := by
  obtain ⟨-, hcount, -⟩ := h
  simp [hcount]

/-- A running cycle is open, and its frame is not complete. -/
theorem cycleOpen_of_busy {r : Regs} (h : r.phaseInv) (hb : r.busy = true) : r.cycleOpen ∧ r.bitCount.toNat < 40 := by
  cases hp : r.phase with
  | idle | done | failed => simp [Regs.busy, Phase.isBusy, hp] at hb
  | requesting =>
    obtain ⟨hopen, hclear, -⟩ := (phaseInv_requesting hp).mp h
    exact ⟨hopen, hclear.count_lt⟩
  | awaitingResponseLow =>
    obtain ⟨hopen, hclear, -⟩ := (phaseInv_ackLow hp).mp h
    exact ⟨hopen, hclear.count_lt⟩
  | awaitingResponseHigh =>
    obtain ⟨hopen, hclear, -⟩ := (phaseInv_ackHigh hp).mp h
    exact ⟨hopen, hclear.count_lt⟩
  | readingBits =>
    obtain ⟨hopen, hcount, -⟩ := (phaseInv_reading hp).mp h
    exact ⟨hopen, hcount⟩

/-! ## What the shared operations do to the invariant -/

/-- `raise Fail` after a gate-pass, the frame not complete, enters `Failed` as the table has it. -/
theorem fail_phaseInv (code : Failure) (as : List Action) {r : Regs} (hlast : r.haveLast = true)
    (hcount : r.bitCount.toNat < 40) : (fail code as r).regs.phaseInv :=
  ⟨hlast, ⟨rfl, rfl, rfl⟩, hcount, by cases code <;> simp [Failure.status]⟩

/-- The start of a cycle meets the invariant whatever the registers were. -/
theorem startCycle_inv (x : Input) (r : Regs) : (startCycle x r).regs.inv := by
  rw [inv_iff]
  obtain ⟨-, h⟩ | ⟨-, h⟩ := startCycle_cases x r <;> rw [h]
  · exact ⟨fail_phaseInv _ _ rfl (by simp), by simp [Regs.frameHoldsCountedBits]⟩
  · exact ⟨⟨⟨rfl, rfl⟩, ⟨rfl, rfl, rfl⟩, by simp [Regs.requestPins]⟩, by simp [Regs.frameHoldsCountedBits]⟩

/-- Before the fortieth bit the six-bit counter does not wrap. -/
theorem bitCount_succ_toNat {n : BitVec 6} (h : n.toNat < 40) : (n + 1).toNat = n.toNat + 1 := by
  bv_omega

/-- A frame with room in its top bit is doubled by a shift, and the new bit added. -/
theorem shiftIn_toNat {f : Frame} (b : Bool) (h : f.toNat < 2 ^ 39) : (shiftIn f b).toNat = 2 * f.toNat + b.toNat := by
  simp only [shiftIn, BitVec.toNat_concat, BitVec.extractLsb'_toNat, Nat.shiftRight_zero, Nat.mod_eq_of_lt h]
  omega

/-- A frame of `n` bits, shifted, is one of `n + 1`: no payload bit is lost. -/
theorem shiftIn_bound {f : Frame} (b : Bool) {n : Nat} (hn : n < 40) (h : f.toNat < 2 ^ n) :
    (shiftIn f b).toNat < 2 ^ (n + 1) := by
  have hroom : f.toNat < 2 ^ 39 := h.trans_le (Nat.pow_le_pow_right (by decide) (by omega))
  have hb : b.toNat < 2 := b.toNat_lt
  rw [shiftIn_toNat b hroom, Nat.pow_succ]
  omega

/-- Taking a bit before the fortieth keeps the bound on the frame. -/
theorem takeBit_frameHoldsCountedBits (cfg : Config) (x : Input) (d : Time) {r : Regs} (hcount : r.bitCount.toNat < 40)
    (h : r.frameHoldsCountedBits) : (takeBit cfg x d r).frameHoldsCountedBits := by
  rw [Regs.frameHoldsCountedBits, takeBit_frame, takeBit_bitCount, bitCount_succ_toNat hcount]
  exact shiftIn_bound _ hcount h

/-! ## Every micro-operation keeps the invariant -/

/-- Only the taking of a bit touches the frame and its count. -/
theorem BusyEffect.keeps_frameHoldsCountedBits {cfg : Config} {x : Input} {r : Regs} {e : Effect}
    (h : BusyEffect cfg x r e) (hcount : r.bitCount.toNat < 40) (hf : r.frameHoldsCountedBits) :
    e.regs.frameHoldsCountedBits := by
  cases h with
  | bitTaken | lastBitTaken => exact takeBit_frameHoldsCountedBits cfg x _ hcount hf
  | _ => exact hf

/-- The table over the phases is kept while a cycle runs. -/
theorem BusyEffect.keeps_phaseInv {cfg : Config} {x : Input} {r : Regs} {e : Effect} (h : BusyEffect cfg x r e)
    (hb : r.busy = true) (hi : r.phaseInv) : e.regs.phaseInv := by
  obtain ⟨⟨hlast, -⟩, hcount⟩ := cycleOpen_of_busy hi hb
  cases h with
  | holdsLow | holdsHigh | turnPending | ackPending | bitPending => exact hi
  | portRefusesLow | portRefusesHigh | portRefusesInput | turnTimeout | turnRejected | ackTimeout | ackRejected
  | bitTimeoutAbort => exact fail_phaseInv _ _ hlast hcount
  | drivesLow hp hq | drivesHigh hp hq =>
    obtain ⟨hopen, hclear, hout, -⟩ := (phaseInv_requesting hp).mp hi
    exact (phaseInv_requesting (by exact hp)).mpr
      ⟨hopen, hclear, by simpa [Regs.requestPins] using hout (by simp [hq])⟩
  | switchesToInput hp hq =>
    obtain ⟨hopen, hclear, -, -, hlow⟩ := (phaseInv_requesting hp).mp hi
    exact (phaseInv_requesting (by exact hp)).mpr ⟨hopen, hclear, by simpa [Regs.requestPins, hq] using hlow⟩
  | arms hp hq =>
    obtain ⟨hopen, hclear, -, hin, hlow⟩ := (phaseInv_requesting hp).mp hi
    exact (phaseInv_requesting (by exact hp)).mpr ⟨hopen, hclear, fun hn => absurd hq hn, hin, hlow⟩
  | turnAccepted hp hq ha he hl =>
    obtain ⟨hopen, hclear, -, hin, hlow⟩ := (phaseInv_requesting hp).mp hi
    exact ⟨hopen, hclear, ⟨ha, hin hq, by simpa [hq] using hlow⟩, hl⟩
  | ackLowAccepted hp he =>
    obtain ⟨hopen, hclear, hpin, href⟩ := (phaseInv_ackLow hp).mp hi
    exact ⟨hopen, hclear, hpin, by simpa [href] using he⟩
  | ackHighAccepted hp he =>
    obtain ⟨hopen, ⟨hhalf, -⟩, hpin, href⟩ := (phaseInv_ackHigh hp).mp hi
    exact ⟨hopen, hcount, hpin, by simpa [href, hhalf] using he⟩
  | bitTimeoutInvalid hp =>
    obtain ⟨-, -, ⟨-, hdir, hout⟩, -⟩ := (phaseInv_reading hp).mp hi
    exact ⟨hlast, ⟨rfl, hdir, hout⟩, hcount.le, .inl rfl⟩
  | lowHalfEnds hp hh he =>
    obtain ⟨hopen, -, hpin, href⟩ := (phaseInv_reading hp).mp hi
    exact (phaseInv_reading (by exact hp)).mpr ⟨hopen, hcount, hpin, by simpa [href, hh] using he⟩
  | bitTaken hp hh he hn =>
    obtain ⟨hopen, -, hpin, href⟩ := (phaseInv_reading hp).mp hi
    have hroom : (r.bitCount + 1).toNat < 40 := by rw [bitCount_succ_toNat hcount]; bv_omega
    exact (phaseInv_reading (by exact hp)).mpr ⟨hopen, hroom, hpin, by simpa [href, hh] using he⟩
  | lastBitTaken hp hh he hn =>
    obtain ⟨-, -, ⟨-, hdir, hout⟩, -⟩ := (phaseInv_reading hp).mp hi
    have hfull : (r.bitCount + 1).toNat = 40 := by rw [hn]; rfl
    refine ⟨hlast, ⟨rfl, hdir, hout⟩, hfull.le, ?_⟩
    by_cases hc : checksumOk (shiftIn r.frame (bitValue cfg (dur x.now r.tMark))) = true
    · exact .inr ⟨if_pos hc, hfull, hc⟩
    · exact .inl (if_neg hc)

/-- An instant without reset keeps the invariant: a running cycle by its micro-operation, a resting block by starting a
cycle or by doing nothing. -/
theorem effectByFields_inv (a : Bool) (cfg : Config) (x : Input) {r : Regs} (h : r.inv) :
    (effectByFields a cfg x r).regs.inv := by
  cases hb : r.busy with
  | true =>
    obtain ⟨hi, hf⟩ := (inv_iff r).mp h
    have he : BusyEffect cfg x r (effectByFields a cfg x r) := busyEffect_of_busy a cfg x r hb
    exact (inv_iff _).mpr
      ⟨he.keeps_phaseInv hb hi, he.keeps_frameHoldsCountedBits (cycleOpen_of_busy hi hb).2 hf⟩
  | false =>
    rw [restEffect_of_not_busy a cfg x r hb]
    cases a with
    | true => exact startCycle_inv x r
    | false => exact h

/-- The base case: the row of `Idle`, and no bit counted. -/
theorem reset_inv : Regs.reset.inv :=
  (inv_iff _).mpr ⟨⟨rfl, ⟨rfl, rfl, rfl⟩, by decide⟩, by decide⟩

/-- One step keeps the invariant. -/
theorem step_keeps_inv {s t : State} (hi : s.regs.inv) (h : step s = .next t) : t.regs.inv := by
  obtain ⟨-, rfl⟩ | ⟨-, -, rfl⟩ := step_cases h
  · exact reset_inv
  · exact effectByFields_inv _ _ _ hi

/-- A state that meets the invariant has a step, since its bit count is reachable. -/
theorem step_goes_on {s : State} (hi : s.regs.inv) : ∃ t, step s = .next t := by
  obtain ⟨⟨-, hcount, -⟩, -⟩ := hi
  cases hr : s.sample.rst with
  | true => exact ⟨resetStep s, by simp [step, hr]⟩
  | false => exact ⟨_, step_of_not_rst s hr hcount⟩

/-- Every run from a state that meets the invariant goes on, to a state that meets it. -/
theorem runSteps_keeps_inv (n : Nat) {s : State} (hi : s.regs.inv) : ∃ t, runSteps n s = .next t ∧ t.regs.inv := by
  induction n generalizing s with
  | zero => exact ⟨s, runSteps_zero s, hi⟩
  | succ n ih =>
    obtain ⟨u, hu⟩ := step_goes_on hi
    rw [runSteps_succ n hu]
    exact ih (step_keeps_inv hi hu)

/-! ## The registers and the port -/

/-- What the pin registers say a port is (R33). -/
def Regs.port (r : Regs) : Port where
  dir := r.pinDir
  out := r.pinOut

/-- The actions of two lists take effect one list after the other. -/
theorem Port.apply_append (p : Port) (as bs : List Action) : p.apply (as ++ bs) = (p.apply as).apply bs := by
  induction as generalizing p with
  | nil => rfl
  | cons a as ih => cases a <;> simp [ih]

/-- The restore leaves an output driven high, whatever was issued before it. -/
theorem fail_port (code : Failure) (as : List Action) (p : Port) (r : Regs) :
    (fail code as r).regs.port = p.apply (fail code as r).actions := by
  rw [fail_actions, Port.apply_append]
  rfl

/-- A micro-operation of a running cycle writes the pin registers exactly as it asks the port to change. -/
theorem BusyEffect.port {cfg : Config} {x : Input} {r : Regs} {e : Effect} (h : BusyEffect cfg x r e) :
    e.regs.port = r.port.apply e.actions := by
  cases h with
  | portRefusesLow | portRefusesHigh | portRefusesInput | turnTimeout | turnRejected | ackTimeout | ackRejected
  | bitTimeoutAbort => exact fail_port _ _ _ _
  | _ => rfl

/-- The start of a cycle, refused by the port or not, writes the pin registers as it asks the port to change. -/
theorem startCycle_port (x : Input) (r : Regs) :
    (startCycle x r).regs.port = r.port.apply (startCycle x r).actions := by
  obtain ⟨-, h⟩ | ⟨-, h⟩ := startCycle_cases x r <;> rw [h]
  · exact fail_port _ _ _ _
  · rfl

/-- R33 and R66 for a whole instant. -/
theorem effectByFields_port (a : Bool) (cfg : Config) (x : Input) (r : Regs) :
    (effectByFields a cfg x r).regs.port = r.port.apply (effectByFields a cfg x r).actions := by
  cases hb : r.busy with
  | true => exact (busyEffect_of_busy a cfg x r hb).port
  | false =>
    rw [restEffect_of_not_busy a cfg x r hb]
    cases a with
    | true => exact startCycle_port x r
    | false => rfl

/-- A step without reset writes the pin registers exactly as it asks the port to change. -/
theorem step_port {s t : State} (hr : s.sample.rst = false) (h : step s = .next t) :
    t.regs.port = s.regs.port.apply t.actions := by
  obtain ⟨hr', -⟩ | ⟨-, -, rfl⟩ := step_cases h
  · rw [hr] at hr'
    cases hr'
  · exact effectByFields_port _ _ _ _

/-- A reset issues no action (R125). -/
theorem step_actions_of_rst {s t : State} (hr : s.sample.rst = true) (h : step s = .next t) : t.actions = [] := by
  obtain ⟨-, rfl⟩ | ⟨hr', -⟩ := step_cases h
  · rfl
  · rw [hr] at hr'
    cases hr'

/-- With an exclusive pin a reset leaves the port as it is. -/
theorem port_of_reset {tr : Nat → Instant} (ht : isTrace tr) (hp : pinExclusive tr) {i : Nat}
    (hr : (tr i).sample.rst = true) : (tr (i + 1)).port = (tr i).port := by
  obtain ⟨done, hdone, hport⟩ := hp i
  rw [issued, step_actions_of_rst (s := (tr i).state.withSample (tr i).sample) hr (ht i), List.sublist_nil] at hdone
  rw [hport, hdone, Port.apply_nil]

/-- Without resets and failing actions the port stays what the pin registers say. -/
theorem port_eq_regs_port {tr : Nat → Instant} (ht : isTrace tr) (ha : actionsTakeEffect tr) (hn : neverReset tr)
    (he : ∀ i, (tr i).sample.ioErr = false) (h0 : (tr 0).port = (tr 0).state.regs.port) (i : Nat) :
    (tr i).port = (tr i).state.regs.port := by
  induction i with
  | zero => exact h0
  | succ i ih =>
    have hregs : (tr (i + 1)).state.regs.port = (tr i).state.regs.port.apply (issued tr i) :=
      step_port (s := (tr i).state.withSample (tr i).sample) (hn i) (ht i)
    rw [ha i (he i), ih, hregs]

/-! ## The outputs -/

/-- The humidity byte, the topmost of the frame (R70). -/
theorem hI_toNat (f : Frame) : f.hI.toNat = f.toNat / 2 ^ 32 := by
  rw [Frame.hI, BitVec.extractLsb'_toNat, Nat.shiftRight_eq_div_pow]
  omega

/-- The integer byte of the temperature (R70). -/
theorem tI_toNat (f : Frame) : f.tI.toNat = f.toNat / 2 ^ 16 % 256 := by
  rw [Frame.tI, BitVec.extractLsb'_toNat, Nat.shiftRight_eq_div_pow]

/-- Concatenation as arithmetic: the upper word weighs the width of the lower one. -/
theorem toNat_append_eq_add {m n : Nat} (x : BitVec m) (y : BitVec n) :
    (x ++ y).toNat = x.toNat * 2 ^ n + y.toNat := by
  rw [BitVec.toNat_append, ← Nat.shiftLeft_add_eq_or_of_lt y.isLt, Nat.shiftLeft_eq]

/-- Format P (R90). -/
theorem reportWord_toNat (r : Regs) :
    r.reportWord.toNat =
      2 ^ 19 * r.rptValid.toNat + 2 ^ 16 * r.rptStatus.toNat + 2 ^ 8 * r.rptHumidity.toNat +
        r.rptTemperature.toNat := by
  simp only [Regs.reportWord, BitVec.toNat_cast, toNat_append_eq_add, BitVec.toNat_ofBool]
  omega

/-- The phases of a running cycle (R37). -/
theorem busy_iff (r : Regs) :
    r.busy = true ↔ r.phase = .requesting ∨ r.phase = .awaitingResponseLow ∨ r.phase = .awaitingResponseHigh ∨
      r.phase = .readingBits := by
  cases hp : r.phase <;> simp [Regs.busy, Phase.isBusy, hp]

/-! ## The obligations -/

/-- Settles O55: a reset loads registers that meet the invariant, and without one each effect the selected micro-operation
can have keeps it. -/
theorem everyStepKeepsTheInvariant : Obligations.EveryStepKeepsTheInvariant :=
  fun _ _ => step_keeps_inv

/-- Settles O56, by the table's row for `Idle`. -/
theorem resetMeetsTheInvariant : Obligations.ResetMeetsTheInvariant :=
  reset_inv

/-- Settles O57: the invariant holds after reset, and its first part is R41. -/
theorem everyReachableStateMeetsR41 : Obligations.EveryReachableStateMeetsR41 := by
  intro cfg xs n
  obtain ⟨t, hrun, hr41, -⟩ := runSteps_keeps_inv n (s := { State.reset with cfg := cfg, inputs := xs }) reset_inv
  exact ⟨t, hrun, hr41⟩

/-- Settles O50: the two registers are the two halves of the port they describe. -/
theorem pinRegistersFollowTheActions : Obligations.PinRegistersFollowTheActions := by
  intro s t hr h
  have hport : t.regs.port = s.regs.port.apply t.actions := step_port hr h
  exact ⟨congrArg Port.dir hport, congrArg Port.out hport⟩

/-- Settles O59: the registers and the port change by the same actions, so they stay equal; a reset issues none. -/
theorem portFollowsTheActions : Obligations.PortFollowsTheActions := by
  intro tr ht
  refine ⟨fun hp i hr => port_of_reset ht hp hr, ?_⟩
  rintro ⟨ha, hwrite, hread⟩ hn he h0 i
  have hport : (tr i).port = (tr i).state.regs.port := port_eq_regs_port ht ha hn he h0 i
  have hdir : (tr i).port.dir = (tr i).state.regs.pinDir := congrArg Port.dir hport
  have hout : (tr i).port.out = (tr i).state.regs.pinOut := congrArg Port.out hport
  exact ⟨hport, fun hd => (hwrite i (hdir.trans hd)).trans hout, fun hd => hread i (hdir.trans hd)⟩

/-- Settles O54: the report bytes are fields of the frame exactly when the status is `Valid`, and the report word is
their concatenation read as arithmetic. -/
theorem outputsAreR37 : Obligations.OutputsAreR37 := by
  intro s
  refine ⟨busy_iff s.regs, rfl, by simp [Regs.rptValid], rfl, fun hv => ?_, fun hv => ?_, rfl, reportWord_toNat s.regs⟩
  · rw [Regs.rptHumidity, Regs.rptTemperature, if_pos hv, if_pos hv]
    exact ⟨hI_toNat _, tI_toNat _⟩
  · exact ⟨if_neg hv, if_neg hv⟩

/-- Settles O13: the values `State.reset` is written with are R39's. -/
theorem resetRegisterTable : Obligations.ResetRegisterTable :=
  rfl

end Sys2Proof.Machine

/-! # Proofs for the statements of 20_memory.md: what a sample influences, the frame and its forty bits -/

namespace Sys2Proof.Machine

/-! ## The frame as a number (R70) -/

/-- The fraction byte of the humidity. -/
theorem hF_toNat (f : Frame) : f.hF.toNat = f.toNat / 2 ^ 24 % 256 := by
  rw [Frame.hF, BitVec.extractLsb'_toNat, Nat.shiftRight_eq_div_pow]

/-- The fraction byte of the temperature. -/
theorem tF_toNat (f : Frame) : f.tF.toNat = f.toNat / 2 ^ 8 % 256 := by
  rw [Frame.tF, BitVec.extractLsb'_toNat, Nat.shiftRight_eq_div_pow]

/-- The checksum byte, the lowest of the frame. -/
theorem c_toNat (f : Frame) : f.c.toNat = f.toNat % 256 := by
  rw [Frame.c, BitVec.extractLsb'_toNat, Nat.shiftRight_zero]

/-- The five bytes are the digits of the frame to the base 256, the first one sent the most significant. -/
theorem ofBytes_toNat (hI hF tI tF c : Byte) :
    (Frame.ofBytes hI hF tI tF c).toNat =
      hI.toNat * 2 ^ 32 + hF.toNat * 2 ^ 24 + tI.toNat * 2 ^ 16 + tF.toNat * 2 ^ 8 + c.toNat := by
  simp only [Frame.ofBytes, BitVec.toNat_cast, toNat_append_eq_add]
  omega

/-! ## What a step depends on -/

/-- A step with `rst = 1` (R125). -/
theorem step_of_rst {s : State} (hr : s.sample.rst = true) : step s = .next (resetStep s) := by
  rw [step, if_pos hr]

/-- A step without reset from an unreachable count stops (R101). -/
theorem step_of_unreachableCount {s : State} (hr : s.sample.rst = false) (hc : ¬ s.regs.bitCount.toNat ≤ 40) :
    step s = .fault .unreachableCode := by
  have hu : s.regs.unreachableCount = true := decide_eq_true (by rw [nBits]; omega)
  simp [step, hr, hu]

/-- Two samples with the same reset input, the same answer and the same effect are the same to a step. -/
theorem step_withSample_eq {s : State} {x : Input} (hr : x.rst = s.sample.rst)
    (hans : commandAnswer (s.withSample x) = commandAnswer s)
    (heff : effectByFields (commandAnswer s).accept s.cfg x s.regs =
      effectByFields (commandAnswer s).accept s.cfg s.sample s.regs) :
    step (s.withSample x) = step s := by
  cases hrst : s.sample.rst with
  | true =>
    rw [step_of_rst hrst, step_of_rst (s := s.withSample x) (hr.trans hrst)]
    rfl
  | false =>
    have hrst' : (s.withSample x).sample.rst = false := hr.trans hrst
    by_cases hc : s.regs.bitCount.toNat ≤ 40
    · rw [step_of_not_rst s hrst hc, step_of_not_rst (s.withSample x) hrst' hc, hans, State.withSample_cfg,
        State.withSample_regs, State.withSample_sample, heff]
      rfl
    · rw [step_of_unreachableCount hrst hc, step_of_unreachableCount (s := s.withSample x) hrst' hc]

/-- Outside the waits no micro-operation looks at the pin. -/
theorem effectByFields_pinIn (a : Bool) (cfg : Config) (x : Input) (b : Level) {r : Regs} (h : r.readsPin = false) :
    effectByFields a cfg { x with pinIn := b } r = effectByFields a cfg x r := by
  unfold Regs.readsPin at h
  unfold effectByFields
  cases hp : r.phase with
  | idle | done | failed => rfl
  | awaitingResponseLow | awaitingResponseHigh | readingBits => simp [hp] at h
  | requesting =>
    cases hq : r.reqStep with
    | reqHigh | reqLow | reqRelease => rfl
    | reqTurn => simp [hp, hq] at h

/-- The answer to anything but a `POLL` is a function of the command word, and starts no cycle (R122, R123). -/
theorem commandAnswer_of_not_poll {w : BitVec 3} (h : decodeCommand w ≠ .ok .poll) :
    ∃ rsp, ∀ s : State, s.sample.commandWord = w → commandAnswer s = ⟨rsp, false⟩ := by
  unfold commandAnswer
  cases hd : decodeCommand w with
  | rejected => exact ⟨.none, fun s hw => by rw [hw, hd]; rfl⟩
  | ok c =>
    cases c with
    | poll => exact absurd hd h
    | rsv2 | rsv3 => exact ⟨.illegal, fun s hw => by rw [hw, hd]; rfl⟩
    | _ => exact ⟨.none, fun s hw => by rw [hw, hd]; rfl⟩

/-! ## The shift register (R194) -/

/-- The new bit is bit 0. -/
theorem shiftIn_getLsbD_zero (f : Frame) (b : Bool) : (shiftIn f b).getLsbD 0 = b := by
  rw [shiftIn, BitVec.getLsbD_concat_zero]

/-- Every other bit moves up by one. -/
theorem shiftIn_getLsbD_succ (f : Frame) (b : Bool) {i : Nat} (hi : i < 39) :
    (shiftIn f b).getLsbD (i + 1) = f.getLsbD i := by
  simp [shiftIn, BitVec.getLsbD_concat_succ, hi]

/-- The lowest `n` bits of the frame are the bits 0 to `n - 1` received, the latest one lowest. -/
def holdsBits (bit : Nat → Bool) (n : Nat) (f : Frame) : Prop :=
  ∀ j < n, f.getLsbD j = bit (n - 1 - j)

/-- Shifting in the next bit received. -/
theorem holdsBits_shiftIn {bit : Nat → Bool} {n : Nat} {f : Frame} (hn : n < 40) (h : holdsBits bit n f) :
    holdsBits bit (n + 1) (shiftIn f (bit n)) := by
  intro j hj
  cases j with
  | zero => exact shiftIn_getLsbD_zero f (bit n)
  | succ j =>
    rw [shiftIn_getLsbD_succ f _ (by omega), h j (by omega)]
    congr 1
    omega

/-- A frame of forty bits holds the first one most significant (R69). -/
theorem getMsbD_of_holdsBits {bit : Nat → Bool} {f : Frame} (h : holdsBits bit 40 f) {k : Nat} (hk : k < 40) :
    f.getMsbD k = bit k := by
  rw [BitVec.getMsbD_eq_getLsbD, decide_eq_true hk, Bool.true_and, h _ (by omega)]
  congr 1
  omega

/-! ## The two halves of a bit-period -/

/-- A change of level ends a wait whatever its deadline (R143). -/
theorem edgeStep_of_ne {r : Regs} {x : Input} (timeout : Time) (h : x.pinIn ≠ r.refLevel) :
    edgeStep r x timeout = .edge { level := x.pinIn, duration := dur x.now r.tMark } := by
  simp [edgeStep, h]

/-- The rise that ends a low half (R191). -/
theorem effectByFields_low_edge (a : Bool) (cfg : Config) {x : Input} {r : Regs} (hp : r.phase = .readingBits)
    (hh : r.half = false) (he : x.pinIn ≠ r.refLevel) :
    effectByFields a cfg x r = ⟨{ rearm x r with half := true }, [.read]⟩ := by
  simp only [effectByFields, hp, hh, Bool.false_eq_true, if_false, seqBitLow, edgeStep_of_ne _ he]

/-- The fall that ends a high half takes a bit, and the fortieth finishes the frame (R194, R195). -/
theorem effectByFields_high_edge (a : Bool) (cfg : Config) {x : Input} {r : Regs} (hp : r.phase = .readingBits)
    (hh : r.half = true) (he : x.pinIn ≠ r.refLevel) :
    effectByFields a cfg x r =
      let r' := takeBit cfg x (dur x.now r.tMark) r
      ⟨if r.bitCount = 39 then finish r'.frame r' else r', [.read]⟩ := by
  simp only [effectByFields, hp, hh, if_true, seqBitHigh, edgeStep_of_ne _ he, bitCount_succ_eq, beq_iff_eq]
  split <;> rfl

/-! ## Forty bit-periods -/

/-- Eighty samples without reset, listed first in `l`, alternate high and low: one at each edge of forty bit-periods. -/
def edgeSamples (xs : Nat → Input) (l : List Input) : Prop :=
  ∀ k < 80, l[k]? = some (xs k) ∧ (xs k).rst = false ∧ (xs k).pinIn = decide (k % 2 = 0)

/-- The `k`-th bit: the threshold test of its high half, which the samples `2 * k` and `2 * k + 1` bound (R193). -/
def payloadBit (cfg : Config) (xs : Nat → Input) (k : Nat) : Bool :=
  bitValue cfg (dur (xs (2 * k + 1)).now (xs (2 * k)).now)

/-- `n` bits are received and the low half, or with `half` the high half, of bit `n` is waited out. -/
structure Receiving (cfg : Config) (xs : Nat → Input) (l : List Input) (n : Nat) (half : Bool) (t : State) : Prop where
  cfg_eq : t.cfg = cfg
  inputs_eq : t.inputs = l.drop (2 * n + half.toNat)
  phase_eq : t.regs.phase = .readingBits
  half_eq : t.regs.half = half
  refLevel_eq : t.regs.refLevel = half
  bitCount_eq : t.regs.bitCount.toNat = n
  mark_eq : half = true → t.regs.tMark = (xs (2 * n)).now
  payload : holdsBits (payloadBit cfg xs) n t.regs.frame

/-- After `k` samples the next one listed is sample `k`. -/
theorem sample_of_inputs_drop {t : State} {l : List Input} {k : Nat} {x : Input} (ht : t.inputs = l.drop k)
    (hx : l[k]? = some x) : t.sample = x := by
  obtain ⟨hk, rfl⟩ := List.getElem?_eq_some_iff.mp hx
  exact State.sample_cons t _ _ (ht.trans (List.drop_eq_getElem_cons hk))

section
variable {cfg : Config} {xs : Nat → Input} {l : List Input} {n : Nat} {half : Bool} {t : State}

/-- The sample of a half is the edge that ends it. -/
theorem Receiving.sample_edge (hx : edgeSamples xs l) (hn : n < 40) (h : Receiving cfg xs l n half t) :
    t.sample = xs (2 * n + half.toNat) ∧ t.sample.rst = false ∧ t.sample.pinIn = !half := by
  have hk : 2 * n + half.toNat < 80 := by have := half.toNat_lt; omega
  obtain ⟨hlist, hrst, hpin⟩ := hx _ hk
  have hs : t.sample = xs (2 * n + half.toNat) := sample_of_inputs_drop h.inputs_eq hlist
  refine ⟨hs, by rw [hs, hrst], ?_⟩
  rw [hs, hpin]
  cases half <;> simp

/-- The low half ends: the high half of the same bit begins at its sample. -/
theorem Receiving.low_edge (hx : edgeSamples xs l) (hn : n < 40) (h : Receiving cfg xs l n false t) :
    ∃ u, step t = .next u ∧ Receiving cfg xs l n true u := by
  obtain ⟨hs, hrst, hpin⟩ := h.sample_edge hx hn
  have he : t.sample.pinIn ≠ t.regs.refLevel := by simp [hpin, h.refLevel_eq]
  have hc : t.regs.bitCount.toNat ≤ 40 := by rw [h.bitCount_eq]; omega
  refine ⟨_, step_of_not_rst t hrst hc, ?_⟩
  rw [effectByFields_low_edge _ _ h.phase_eq h.half_eq he]
  exact {
    cfg_eq := h.cfg_eq
    inputs_eq := by rw [commit_inputs, h.inputs_eq, List.tail_drop]; rfl
    phase_eq := h.phase_eq
    half_eq := rfl
    refLevel_eq := hpin
    bitCount_eq := h.bitCount_eq
    mark_eq := fun _ => congrArg Input.now hs
    payload := h.payload }

/-- The high half ends: one more bit of the payload is held, and with the fortieth the frame is finished. -/
theorem Receiving.high_edge (hx : edgeSamples xs l) (hn : n < 40) (h : Receiving cfg xs l n true t) :
    ∃ u, Receiving cfg xs l (n + 1) false u ∧
      step t = .next (if n = 39 then { u with regs := finish u.regs.frame u.regs } else u) := by
  obtain ⟨hs, hrst, hpin⟩ := h.sample_edge hx hn
  have he : t.sample.pinIn ≠ t.regs.refLevel := by simp [hpin, h.refLevel_eq]
  have hc : t.regs.bitCount.toNat < 40 := by rw [h.bitCount_eq]; exact hn
  have hbit : bitValue t.cfg (dur t.sample.now t.regs.tMark) = payloadBit cfg xs n := by
    rw [h.cfg_eq, h.mark_eq rfl, hs]; rfl
  have hlast : t.regs.bitCount = 39 ↔ n = 39 := by rw [← h.bitCount_eq, ← BitVec.toNat_inj]; rfl
  refine ⟨commit t (commandAnswer t).rsp
    ⟨takeBit t.cfg t.sample (dur t.sample.now t.regs.tMark) t.regs, [.read]⟩, ?_, ?_⟩
  · exact {
      cfg_eq := h.cfg_eq
      inputs_eq := by rw [commit_inputs, h.inputs_eq, List.tail_drop]; rfl
      phase_eq := h.phase_eq
      half_eq := rfl
      refLevel_eq := hpin
      bitCount_eq := by rw [commit_regs, takeBit_bitCount, bitCount_succ_toNat hc, h.bitCount_eq]
      mark_eq := nofun
      payload := by rw [commit_regs, takeBit_frame, hbit]; exact holdsBits_shiftIn hn h.payload }
  · rw [step_of_not_rst t hrst hc.le, effectByFields_high_edge _ _ h.phase_eq h.half_eq he]
    simp only [hlast]
    split <;> rfl

/-- The bit-periods before the fortieth, two steps each. -/
theorem runSteps_bit_periods {s : State} (hx : edgeSamples xs l) (h0 : Receiving cfg xs l 0 false s) (hn : n < 40) :
    ∃ t, runSteps (2 * n) s = .next t ∧ Receiving cfg xs l n false t := by
  induction n with
  | zero => exact ⟨s, runSteps_zero s, h0⟩
  | succ n ih =>
    obtain ⟨t, hrun, ht⟩ := ih (by omega)
    obtain ⟨u, hlow, hu⟩ := ht.low_edge hx (by omega)
    obtain ⟨v, hv, hhigh⟩ := hu.high_edge hx (by omega)
    rw [if_neg (by omega)] at hhigh
    have hrun' : runSteps (2 * n + 1) s = .next u := (runSteps_snoc _ hrun).trans hlow
    exact ⟨v, (runSteps_snoc _ hrun').trans hhigh, hv⟩

/-- The fortieth bit-period ends the run with the frame finished. -/
theorem runSteps_forty_bit_periods {s : State} (hx : edgeSamples xs l) (h0 : Receiving cfg xs l 0 false s) :
    ∃ u, Receiving cfg xs l 40 false u ∧
      runSteps 80 s = .next { u with regs := finish u.regs.frame u.regs } := by
  obtain ⟨t, hrun, ht⟩ := runSteps_bit_periods hx h0 (n := 39) (by decide)
  obtain ⟨v, hlow, hv⟩ := ht.low_edge hx (by decide)
  obtain ⟨u, hu, hhigh⟩ := hv.high_edge hx (by decide)
  have hrun' : runSteps 79 s = .next v := (runSteps_snoc 78 hrun).trans hlow
  exact ⟨u, hu, (runSteps_snoc 79 hrun').trans hhigh⟩
end

/-! ## The obligations -/

/-- Settles O42: the run is followed half by half, and the frame it finishes holds the forty bits in the order received. -/
theorem fortyBitPeriodsDeliverThePayload : Obligations.FortyBitPeriodsDeliverThePayload := by
  intro s xs hp hh href hcount hx
  have h0 : Receiving s.cfg xs s.inputs 0 false s :=
    { cfg_eq := rfl
      inputs_eq := rfl
      phase_eq := hp
      half_eq := hh
      refLevel_eq := href
      bitCount_eq := by rw [hcount]; rfl
      mark_eq := nofun
      payload := fun j hj => absurd hj (Nat.not_lt_zero j) }
  obtain ⟨u, hu, hrun⟩ := runSteps_forty_bit_periods hx h0
  exact ⟨_, hrun, rfl, BitVec.eq_of_toNat_eq hu.bitCount_eq, rfl, fun k hk => getMsbD_of_holdsBits hu.payload hk, rfl⟩

/-- Settles O51: the pin enters neither the answer nor, outside the waits, the effect. -/
theorem pinInputIgnoredUnlessRead : Obligations.PinInputIgnoredUnlessRead :=
  fun s b h => step_withSample_eq rfl rfl (effectByFields_pinIn _ s.cfg s.sample b h)

/-- Settles O52: without a `POLL` the answer does not look at the clock, and at rest the registers stay as they are. -/
theorem clockIgnoredAtRestWithoutPoll : Obligations.ClockIgnoredAtRestWithoutPoll := by
  intro s n hb hpoll
  obtain ⟨rsp, hans⟩ := commandAnswer_of_not_poll hpoll
  have hs : commandAnswer s = ⟨rsp, false⟩ := hans s rfl
  have hs' : commandAnswer (s.withSample { s.sample with now := n }) = ⟨rsp, false⟩ := hans _ rfl
  refine step_withSample_eq rfl (hs'.trans hs.symm) ?_
  rw [hs, restEffect_of_not_busy _ _ _ _ hb, restEffect_of_not_busy _ _ _ _ hb]
  rfl

/-- Settles O5: the five bytes and the frame determine each other as a number and its digits to the base 256. -/
theorem frameFieldsRoundTrip : Obligations.FrameFieldsRoundTrip := by
  refine ⟨fun hI hF tI tF c => ⟨?_, ?_, ?_, ?_, ?_⟩, fun f => ?_⟩ <;> apply BitVec.eq_of_toNat_eq
  · rw [hI_toNat, ofBytes_toNat]; omega
  · rw [hF_toNat, ofBytes_toNat]; omega
  · rw [tI_toNat, ofBytes_toNat]; omega
  · rw [tF_toNat, ofBytes_toNat]; omega
  · rw [c_toNat, ofBytes_toNat]; omega
  · rw [ofBytes_toNat, hI_toNat, hF_toNat, tI_toNat, tF_toNat, c_toNat]; omega

end Sys2Proof.Machine

/-! # Proofs for the statements of 30_encoding.md: the rows of the opcode maps, the step of a decoded instruction, the
reserved commands -/

namespace Sys2Proof.Machine

/-! ## Rows of an opcode map -/

/-- No word selects two rows of the map: the patterns of two different rows differ on a bit that both masks keep. -/
abbrev disjointRows {n : Nat} (rows : List (Row n)) : Prop :=
  ∀ r ∈ rows, ∀ r' ∈ rows, r.pattern &&& r'.mask = r'.pattern &&& r.mask → r = r'

/-- Selection is a test of the masked word (R96). -/
theorem selects_iff {n : Nat} (r : Row n) (w : BitVec n) : r.selects w = true ↔ w &&& r.mask = r.pattern := by
  rw [Row.selects, beq_iff_eq]

/-- Two rows that one word selects agree on the bits both masks keep. -/
theorem pattern_and_mask_eq_of_selects {n : Nat} {r r' : Row n} {w : BitVec n} (h : r.selects w = true)
    (h' : r'.selects w = true) : r.pattern &&& r'.mask = r'.pattern &&& r.mask := by
  rw [← (selects_iff r w).mp h, ← (selects_iff r' w).mp h', BitVec.and_assoc, BitVec.and_assoc,
    BitVec.and_comm r.mask]

/-- In a map of disjoint rows the order of the search does not matter. -/
theorem find?_selects_eq_some_iff {n : Nat} {rows : List (Row n)} (hd : disjointRows rows) {r : Row n} {w : BitVec n} :
    rows.find? (fun r => r.selects w) = some r ↔ r ∈ rows ∧ r.selects w = true := by
  have hfound {r' : Row n} (h : rows.find? (fun r => r.selects w) = some r') : r' ∈ rows ∧ r'.selects w = true :=
    ⟨List.mem_of_find?_eq_some h, by simpa using List.find?_some h⟩
  refine ⟨hfound, fun ⟨hr, hs⟩ => ?_⟩
  have hsome : (rows.find? (fun r => r.selects w)).isSome := List.find?_isSome.mpr ⟨r, hr, hs⟩
  obtain ⟨r', h⟩ := Option.isSome_iff_exists.mp hsome
  obtain ⟨hr', hs'⟩ := hfound h
  rw [h, hd r' hr' r hr (pattern_and_mask_eq_of_selects hs' hs)]

/-- The rows of R96 are disjoint. -/
theorem stateRows_disjoint : disjointRows stateRows := by decide

/-- No micro-operation has two rows in R96. -/
theorem eq_of_mem_stateRows_of_instr_eq : ∀ r ∈ stateRows, ∀ r' ∈ stateRows, r.instr = r'.instr → r = r' := by decide

/-- The rows of R96 leave out exactly the codes with `phase = 7`. -/
theorem find?_stateRows_eq_none_iff :
    ∀ sc : BitVec 7, stateRows.find? (fun r => r.selects sc) = none ↔ sc &&& 0b1110000 = 0b1110000 := by decide

/-- A micro-operation is selected exactly by the codes that match its row. -/
theorem decodeStateCode_eq_ok_iff {sc pattern mask : BitVec 7} {i : Instr} (h : ⟨pattern, mask, i⟩ ∈ stateRows) :
    decodeStateCode sc = .ok i ↔ sc &&& mask = pattern := by
  rw [← selects_iff ⟨pattern, mask, i⟩]
  constructor
  · intro hdec
    unfold decodeStateCode at hdec
    split at hdec
    next r hfind =>
      obtain ⟨hr, hs⟩ := (find?_selects_eq_some_iff stateRows_disjoint).mp hfind
      rwa [← eq_of_mem_stateRows_of_instr_eq r hr _ h (Decoded.ok.inj hdec)]
    next => cases hdec
  · intro hs
    rw [decodeStateCode, (find?_selects_eq_some_iff stateRows_disjoint).mpr ⟨h, hs⟩]

/-- A state code is rejected exactly where no row matches. -/
theorem decodeStateCode_eq_rejected_iff (sc : BitVec 7) :
    decodeStateCode sc = .rejected .unreachablePhase ↔ stateRows.find? (fun r => r.selects sc) = none := by
  unfold decodeStateCode
  split
  next h => simp [h]
  next h => simp [h]

/-- A command word is its two fields (R91). -/
theorem commandWordOf_fields : ∀ w : BitVec 3, commandWordOf (w.getLsbD 2) (w.extractLsb' 0 2) = w := by decide

/-! ## The sample without its command -/

/-- No micro-operation looks at the command port (R120). -/
theorem effectByFields_command (a : Bool) (cfg : Config) (x : Input) (v : Bool) (c : BitVec 2) (r : Regs) :
    effectByFields a cfg { x with cmdValid := v, cmd := c } r = effectByFields a cfg x r := by
  unfold effectByFields
  cases r.phase with
  | requesting => cases r.reqStep <;> rfl
  | _ => rfl

/-- The selected micro-operation at the instant of `s`, had it presented no command. -/
theorem exec_selected_withoutCommand {s : State} {m : Instr} (h : decodeStateCode s.regs.stateCode = .ok m) :
    exec m (s.withSample s.sample.withoutCommand) =
      .next (commit s .none (effectByFields false s.cfg s.sample s.regs)) := by
  rw [exec_of_selected (s.withSample s.sample.withoutCommand) m h, commandAnswer_of_not_valid _ rfl,
    ← effectByFields_command false s.cfg s.sample false s.sample.cmd s.regs]
  rfl

/-! ## The obligations -/

/-- Settles O19: a reserved command runs the micro-operation without acceptance, as no command does; only the answer
differs. -/
theorem reservedCommandsAnswerIllegal : Obligations.ReservedCommandsAnswerIllegal :=
  fun s _ hm => ⟨_, exec_selected_withoutCommand hm, runSelected_eq answerRsv2 s, runSelected_eq answerRsv3 s⟩

/-- Settles O1, instruction by instruction. -/
theorem encodeThenDecodeGivesInstruction : Obligations.EncodeThenDecodeGivesInstruction := by
  intro i
  cases i <;> rfl

/-- Settles O2: each word is read by its fields, so the ignored ones can hold anything. -/
theorem specWordsDecodeToTheirRows : Obligations.SpecWordsDecodeToTheirRows :=
  ⟨decodeCommand_of_valid 1, decodeCommand_of_valid 2,
    decodeStateCode_stateCodeOf .idle .reqTurn true true,
    decodeStateCode_stateCodeOf .requesting .reqLow true true,
    decodeStateCode_stateCodeOf .requesting .reqTurn true false,
    decodeStateCode_stateCodeOf .requesting .reqTurn true true,
    decodeStateCode_stateCodeOf .readingBits .reqTurn false true,
    decodeStateCode_stateCodeOf .readingBits .reqTurn true true,
    decodeStateCode_stateCodeOf .failed .reqTurn false false⟩

/-- Settles O3: a command word is read by its fields. -/
theorem commandWordsAreR91 : Obligations.CommandWordsAreR91 := by
  intro w
  refine ⟨fun hv => ?_, ?_, ?_, ?_, ?_⟩
  · rw [← commandWordOf_fields w, hv]
    exact decodeCommand_of_not_valid _
  · rintro rfl
    exact decodeCommand_of_valid 0
  · rintro rfl
    exact decodeCommand_of_valid 1
  · rintro rfl
    exact decodeCommand_of_valid 2
  · rintro rfl
    exact decodeCommand_of_valid 3

/-- Settles O4: the twelve rows are in the table, its rows are disjoint, and they leave out exactly `phase = 7`. -/
theorem stateCodesAreR96 : Obligations.StateCodesAreR96 := by
  intro sc
  refine ⟨?_, ?_, ?_, ?_, ?_, ?_, ?_, ?_, ?_, ?_, ?_, ?_,
    (decodeStateCode_eq_rejected_iff sc).trans (find?_stateRows_eq_none_iff sc)⟩ <;>
    exact decodeStateCode_eq_ok_iff (by decide)

/-- Settles O6: the step, the command and the micro-operation all have the answer of the instant and the effect of the
selected micro-operation. -/
theorem stepRunsTheDecodedInstruction : Obligations.StepRunsTheDecodedInstruction := by
  intro s i hr hc
  have hstep := step_of_not_rst s hr hc
  refine ⟨fun hcmd => ?_, fun _ hsel => ?_⟩
  · rw [hstep, exec_of_command s i hcmd, runSelected_eq]
  · rw [hstep, exec_of_selected s i hsel]

/-- Settles O10: an unreachable count stops every step but a reset. -/
theorem unreachableCountHasNoStep : Obligations.UnreachableCountHasNoStep :=
  fun s hc => ⟨fun hr => step_of_unreachableCount hr (Nat.not_le.mpr hc), fun hr => ⟨resetStep s, step_of_rst hr⟩⟩

end Sys2Proof.Machine

/-! # Proofs for the statements of 40_step.md: the answer to a command, the consolidated listing, the end of a cycle -/

namespace Sys2Proof.Machine

/-! ## The answer of stage (2) -/

/-- The four codes of a command (R91). -/
theorem command_cases : ∀ c : BitVec 2, c = 0 ∨ c = 1 ∨ c = 2 ∨ c = 3 := by decide

/-- A presented command is answered by its code (R123). -/
theorem commandAnswer_of_valid {s : State} (hv : s.sample.cmdValid = true) :
    commandAnswer s =
      if s.sample.cmd = 0 then answerNop else if s.sample.cmd = 1 then answerPoll s
      else if s.sample.cmd = 2 then answerRsv2 else answerRsv3 := by
  rw [commandAnswer, Input.commandWord, hv, decodeCommand_of_valid]
  obtain h | h | h | h := command_cases s.sample.cmd <;> rw [h] <;> rfl

/-- `POLL` while a cycle runs (R217). -/
theorem answerPoll_of_busy {s : State} (hb : s.regs.busy = true) : answerPoll s = ⟨.busy, false⟩ :=
  if_pos hb

/-- `POLL` at rest is answered by the gate (R213, R218). -/
theorem answerPoll_of_not_busy {s : State} (hb : s.regs.busy = false) :
    answerPoll s = if gate s.cfg s.sample.now s.regs then ⟨.accepted, true⟩ else ⟨.notReady, false⟩ := by
  rw [answerPoll, hb, if_neg Bool.false_ne_true]

/-! ## The listing: its command decode and its cases at rest -/

/-- The gate as the listing tests it (R211). -/
theorem gate_eq_true_iff (cfg : Config) (now : Time) (r : Regs) :
    gate cfg now r = true ↔ r.haveLast = false ∨ cfg.tCooldown ≤ now - r.lastTrigger := by
  rw [gate, Bool.or_eq_true, Bool.not_eq_true', decide_eq_true_iff, dur]

/-- The listing decodes commands as the model does. -/
theorem listingCommand_eq (s : State) :
    listingCommand s.cfg s.regs s.sample = ((commandAnswer s).rsp, (commandAnswer s).accept) := by
  simp only [listingCommand, ← busy_iff, ← gate_eq_true_iff]
  cases hv : s.sample.cmdValid with
  | false => rw [commandAnswer_of_not_valid s hv]; rfl
  | true =>
    rw [commandAnswer_of_valid hv]
    obtain h | h | h | h := command_cases s.sample.cmd <;> rw [h]
    case inr.inl =>
      change (if s.regs.busy = true then _ else _) = ((answerPoll s).rsp, (answerPoll s).accept)
      unfold answerPoll
      split
      · rfl
      · split <;> rfl
    all_goals rfl

/-- The result of the spec's step function: an effect with the answer of the instant (R120). -/
def Effect.answered (rsp : Rsp) (e : Effect) : StepResult where
  regs := e.regs
  rsp := rsp
  actions := e.actions

/-- The listing's cases `Idle, Done, Failed` start a cycle with `accept`, and do nothing without it. -/
theorem listingRest_eq (a : Bool) (rsp : Rsp) (x : Input) (r : Regs) :
    listingRest a rsp r x = (if a then startCycle x r else ⟨r, []⟩).answered rsp := by
  cases a with
  | false => rfl
  | true =>
    rw [listingRest, startCycle]
    cases x.ioErr <;> rfl

/-! ## The listing: bits on numbers -/

/-- The number the listing computes is the frame with one more bit (R193, R194). -/
theorem listingFrame_eq (cfg : Config) (d : Time) (f : Frame) :
    (2 * f.toNat + if cfg.tBitThreshold < d then 1 else 0) % 2 ^ 40 = (shiftIn f (bitValue cfg d)).toNat := by
  simp only [shiftIn, bitValue, BitVec.toNat_concat, BitVec.extractLsb'_toNat, Nat.shiftRight_zero]
  split
  next h => rw [decide_eq_true h, Bool.toNat_true]; omega
  next h => rw [decide_eq_false h, Bool.toNat_false]; omega

/-- The checksum test as the listing computes it. -/
theorem checksumOk_iff_byteSum (f : Frame) :
    checksumOk f = true ↔
      f.toNat % 256 =
        (f.toNat / 2 ^ 32 % 256 + f.toNat / 2 ^ 24 % 256 + f.toNat / 2 ^ 16 % 256 + f.toNat / 2 ^ 8 % 256) % 256 := by
  rw [checksumOk, beq_iff_eq, ← BitVec.toNat_inj]
  simp only [BitVec.toNat_add, c_toNat, hI_toNat, hF_toNat, tI_toNat, tF_toNat]
  omega

/-! ## The listing: a running cycle -/

/-- Elapsed time as the listing writes it (R11). -/
theorem sub_eq_dur (now t : Time) : now - t = dur now t := rfl

/-- An answer distributes over a choice of effects. -/
theorem answered_ite (rsp : Rsp) (p : Prop) [Decidable p] (e e' : Effect) :
    Effect.answered rsp (if p then e else e') = if p then e.answered rsp else e'.answered rsp :=
  apply_ite (Effect.answered rsp) p e e'

section
variable (a : Bool) (cfg : Config) (rsp : Rsp) (x : Input) {r : Regs}

/-- The two tests of a wait in the listing tell the outcomes of `edge_step` apart (R143). -/
theorem listingWait_eq (timeout : Time) {onEdge onTimeout onPending : StepResult} {e : Effect}
    (hedge : edgeStep r x timeout = .edge ⟨x.pinIn, dur x.now r.tMark⟩ → onEdge = e.answered rsp)
    (htimeout : edgeStep r x timeout = .timeout → onTimeout = e.answered rsp)
    (hpending : edgeStep r x timeout = .pending → onPending = e.answered rsp) :
    (if x.pinIn ≠ r.refLevel then onEdge else if timeout < x.now - r.tMark then onTimeout else onPending) =
      e.answered rsp := by
  rw [sub_eq_dur]
  obtain ⟨he, h⟩ | ⟨he, hd, h⟩ | ⟨he, hd, h⟩ := edgeStep_cases r x timeout
  · rw [if_pos he, hedge h]
  · rw [if_neg (not_not_intro he), if_pos hd, htimeout h]
  · rw [if_neg (not_not_intro he), if_neg (BitVec.not_lt.mpr hd), hpending h]

/-- The listing's case `Requesting`, sub-step by sub-step. -/
theorem listingRequest_eq (hp : r.phase = .requesting) :
    listingRequest cfg rsp r x = (effectByFields a cfg x r).answered rsp := by
  unfold listingRequest
  split
  next hq =>
    have heff : effectByFields a cfg x r = seqReqHigh x r := by simp only [effectByFields, hp, hq]
    rw [heff, seqReqHigh, answered_ite]
    rfl
  next hq =>
    have heff : effectByFields a cfg x r = seqReqLow cfg x r := by simp only [effectByFields, hp, hq]
    simp only [heff, seqReqLow, holdOver, decide_eq_true_iff, sub_eq_dur, answered_ite]
    rfl
  next hq =>
    have heff : effectByFields a cfg x r = seqReqRelease cfg x r := by simp only [effectByFields, hp, hq]
    simp only [heff, seqReqRelease, holdOver, decide_eq_true_iff, sub_eq_dur, answered_ite]
    rfl
  next hq =>
    by_cases ha : r.armed = false
    · have heff : effectByFields a cfg x r = seqTurnArm x r := by simp [effectByFields, hp, hq, ha]
      rw [if_pos ha, heff]
      rfl
    · have heff : effectByFields a cfg x r = seqTurnWait cfg x r := by simp [effectByFields, hp, hq, ha]
      rw [if_neg ha, heff]
      refine listingWait_eq rsp x cfg.tTurnaround (fun h => ?_) (fun h => ?_) (fun h => ?_)
      · simp only [seqTurnWait, h, turnOk, Bool.and_eq_true, beq_iff_eq, decide_eq_true_iff, answered_ite]
        rfl
      · rw [seqTurnWait, h]; rfl
      · rw [seqTurnWait, h]; rfl

/-- The listing's wait out of `AwaitingResponseLow`. -/
theorem listingAckLow_eq : listingAck cfg .awaitingResponseHigh rsp r x = (seqAckLow cfg x r).answered rsp := by
  refine listingWait_eq rsp x cfg.tEdgeTimeout (fun h => ?_) (fun h => ?_) (fun h => ?_)
  · simp only [seqAckLow, h, inAckWindow, Bool.and_eq_true, decide_eq_true_iff, answered_ite]
    rfl
  · rw [seqAckLow, h]; rfl
  · rw [seqAckLow, h]; rfl

/-- The listing's wait out of `AwaitingResponseHigh`. -/
theorem listingAckHigh_eq : listingAck cfg .readingBits rsp r x = (seqAckHigh cfg x r).answered rsp := by
  refine listingWait_eq rsp x cfg.tEdgeTimeout (fun h => ?_) (fun h => ?_) (fun h => ?_)
  · simp only [seqAckHigh, h, inAckWindow, Bool.and_eq_true, decide_eq_true_iff, answered_ite]
    rfl
  · rw [seqAckHigh, h]; rfl
  · rw [seqAckHigh, h]; rfl

/-- The listing's bit timeout follows the policy as the model's does (R198). -/
theorem listingBitTimeout_eq :
    (if cfg.bitTimeoutPolicy = .decoderInvalid then
      { regs := { r with phase := .done, status := .checksumMismatch, armed := false }, rsp := rsp, actions := [.read] }
    else listingFail .edgeTimeout rsp r [.read]) = (bitTimeout cfg [.read] r).answered rsp := by
  obtain ⟨hpol, h⟩ | ⟨hpol, h⟩ := bitTimeout_cases cfg [.read] r
  · rw [if_pos hpol, h]; rfl
  · rw [if_neg (by simp [hpol]), h]; rfl

/-- The listing's wait out of the low half of a bit. -/
theorem listingBitLow_eq (hh : r.half = false) : listingBits cfg rsp r x = (seqBitLow cfg x r).answered rsp := by
  refine listingWait_eq rsp x cfg.tEdgeTimeout (fun h => ?_) (fun h => ?_) (fun h => ?_)
  · rw [if_pos hh, seqBitLow, h]; rfl
  · rw [seqBitLow, h, listingBitTimeout_eq]
  · rw [seqBitLow, h]; rfl

/-- The listing's wait out of the high half of a bit: the frame is the number it computes, and the verdict the one it
reads off that number. -/
theorem listingBitHigh_eq (hh : r.half = true) : listingBits cfg rsp r x = (seqBitHigh cfg x r).answered rsp := by
  refine listingWait_eq rsp x cfg.tEdgeTimeout (fun h => ?_) (fun h => ?_) (fun h => ?_)
  · have hlast : r.bitCount.toNat + 1 = 40 ↔ r.bitCount = 39 := by bv_omega
    rw [if_neg (by simp [hh])]
    simp only [seqBitHigh, h, listingFrame_eq, ← checksumOk_iff_byteSum, BitVec.ofNat_toNat,
      BitVec.setWidth_eq, hlast, bitCount_succ_eq, beq_iff_eq, answered_ite]
    rfl
  · rw [seqBitHigh, h, listingBitTimeout_eq]
  · rw [seqBitHigh, h]; rfl

/-- The listing yields, with its own answer, the effect of the selected micro-operation. -/
theorem listingStep_eq (hr : x.rst = false) :
    listingStep cfg r x =
      (effectByFields (listingCommand cfg r x).2 cfg x r).answered (listingCommand cfg r x).1 := by
  have hrest (hb : r.busy = false) :
      listingRest (listingCommand cfg r x).2 (listingCommand cfg r x).1 r x =
        (effectByFields (listingCommand cfg r x).2 cfg x r).answered (listingCommand cfg r x).1 := by
    rw [listingRest_eq, restEffect_of_not_busy _ _ _ _ hb]
  rw [listingStep, if_neg (by simp [hr])]
  split
  next hp => exact hrest (by rw [Regs.busy, hp]; rfl)
  next hp => exact hrest (by rw [Regs.busy, hp]; rfl)
  next hp => exact hrest (by rw [Regs.busy, hp]; rfl)
  next hp => exact listingRequest_eq _ cfg _ x hp
  next hp => rw [listingAckLow_eq]; simp only [effectByFields, hp]
  next hp => rw [listingAckHigh_eq]; simp only [effectByFields, hp]
  next hp =>
    cases hh : r.half with
    | false => rw [listingBitLow_eq cfg _ x hh]; simp only [effectByFields, hp, hh, if_false, Bool.false_eq_true]
    | true => rw [listingBitHigh_eq cfg _ x hh]; simp only [effectByFields, hp, hh, if_true]

end

/-! ## The end of a cycle: what is left of it, and what a wait waits for -/

/-- How many more advances a running cycle can make: one for each sub-step of the request, each response wait and each
half of a payload bit. The count of bits is compared with 41, one more than a state that has a step can hold. -/
def Regs.remaining (r : Regs) : Nat :=
  match r.phase with
  | .requesting =>
    match r.reqStep with
    | .reqHigh => 90
    | .reqLow => 89
    | .reqRelease => 88
    | .reqTurn => 86 + (!r.armed).toNat
  | .awaitingResponseLow => 85
  | .awaitingResponseHigh => 84
  | .readingBits => 2 * (41 - r.bitCount.toNat) + (!r.half).toNat
  | .idle | .done | .failed => 0

/-- The time parameter that bounds the hold or wait in progress (R163, R164, R167 to R169, R191, R194). -/
def Regs.waitLimit (cfg : Config) (r : Regs) : Time :=
  match r.phase with
  | .requesting =>
    match r.reqStep with
    | .reqHigh | .reqLow => cfg.tStartLow
    | .reqRelease => cfg.tRelease
    | .reqTurn => cfg.tTurnaround
  | _ => cfg.tEdgeTimeout

/-- The cycle is over and its report stands (R37). -/
def Regs.ended (r : Regs) : Prop :=
  r.phase = .done ∨ r.phase = .failed

/-- The cycle is over, or goes on with fewer advances left than `n`. -/
def Regs.advancedBelow (n : Nat) (r : Regs) : Prop :=
  r.ended ∨ r.busy = true ∧ r.remaining < n

/-- While a cycle runs a micro-operation ends or advances it, except within the limit of a hold or wait, where it
changes no register. -/
theorem BusyEffect.advances_or_waits {cfg : Config} {x : Input} {r : Regs} {e : Effect} (h : BusyEffect cfg x r e)
    (hcount : r.bitCount.toNat ≤ 40) :
    e.regs.advancedBelow r.remaining ∨ e.regs = r ∧ dur x.now r.tMark ≤ r.waitLimit cfg := by
  cases h with
  | portRefusesLow | portRefusesHigh | portRefusesInput | turnTimeout | turnRejected | ackTimeout | ackRejected
  | bitTimeoutAbort => exact .inl (.inl (.inr rfl))
  | bitTimeoutInvalid | lastBitTaken => exact .inl (.inl (.inl rfl))
  | holdsLow hp hq hd | holdsHigh hp hq hd =>
    exact .inr ⟨rfl, by simpa [Regs.waitLimit, hp, hq] using BitVec.le_of_lt hd⟩
  | turnPending hp hq _ hw =>
    obtain ⟨-, hd⟩ := hw
    exact .inr ⟨rfl, by simpa [Regs.waitLimit, hp, hq] using hd⟩
  | ackPending hp hw =>
    obtain ⟨-, hd⟩ := hw
    exact .inr ⟨rfl, by obtain hp | hp := hp <;> simpa [Regs.waitLimit, hp] using hd⟩
  | bitPending hp hw =>
    obtain ⟨-, hd⟩ := hw
    exact .inr ⟨rfl, by simpa [Regs.waitLimit, hp] using hd⟩
  | drivesLow hp hq | drivesHigh hp hq | switchesToInput hp hq =>
    exact .inl (.inr ⟨by simp [Regs.busy, Phase.isBusy, hp], by simp [Regs.remaining, hp, hq]⟩)
  | arms hp hq ha =>
    exact .inl (.inr ⟨by simp [Regs.busy, Phase.isBusy, hp], by simp [Regs.remaining, hp, hq, ha]⟩)
  | turnAccepted hp hq ha => exact .inl (.inr ⟨rfl, by simp [Regs.remaining, hp, hq, ha]⟩)
  | ackLowAccepted hp => exact .inl (.inr ⟨rfl, by simp [Regs.remaining, hp]⟩)
  | ackHighAccepted hp =>
    have hbit : (!r.half).toNat < 2 := Bool.toNat_lt _
    exact .inl (.inr ⟨rfl, by simp only [Regs.remaining, hp, rearm_bitCount, rearm_half]; omega⟩)
  | lowHalfEnds hp hh =>
    exact .inl (.inr ⟨by simp [Regs.busy, Phase.isBusy, hp], by simp [Regs.remaining, hp, hh]⟩)
  | bitTaken hp hh =>
    have hnext : (r.bitCount + 1).toNat = r.bitCount.toNat + 1 := by bv_omega
    refine .inl (.inr ⟨by simp [Regs.busy, Phase.isBusy, hp], ?_⟩)
    simp only [Regs.remaining, takeBit_phase, takeBit_bitCount, takeBit_half, hp, hh, hnext, Bool.not_false,
      Bool.not_true, Bool.toNat_true, Bool.toNat_false]
    omega

/-- A limit below half the clock's range, when the time parameters are (R270(a), log entry 18). -/
theorem waitLimit_toNat_lt {cfg : Config} (r : Regs) (hlow : cfg.tStartLow.toNat < 2 ^ 63)
    (hrel : cfg.tRelease.toNat < 2 ^ 63) (hturn : cfg.tTurnaround.toNat < 2 ^ 63)
    (hedge : cfg.tEdgeTimeout.toNat < 2 ^ 63) : (r.waitLimit cfg).toNat < 2 ^ 63 := by
  unfold Regs.waitLimit
  cases r.phase with
  | requesting =>
    cases r.reqStep with
    | reqHigh | reqLow => exact hlow
    | reqRelease => exact hrel
    | reqTurn => exact hturn
  | _ => exact hedge

/-! ## The end of a cycle: along an unending run -/

section
variable {tr : Nat → Instant} (ht : isTrace tr)
include ht

/-- No step of a run writes the configuration. -/
theorem cfg_of_isTrace (i k : Nat) : (tr (i + k)).state.cfg = (tr i).state.cfg := by
  induction k with
  | zero => rfl
  | succ k ih => exact (stepTakesOneSampleInstant _ _ (ht (i + k))).1.trans ih

/-- A busy instant of a run without reset: its step ends or advances the cycle, or the limit of the hold or wait is not
passed and the registers stay. -/
theorem busy_instant_advances_or_waits (hn : neverReset tr) {i : Nat} (hb : (tr i).state.regs.busy = true) :
    (tr (i + 1)).state.regs.advancedBelow (tr i).state.regs.remaining ∨
      (tr (i + 1)).state.regs = (tr i).state.regs ∧
        dur (tr i).sample.now (tr i).state.regs.tMark ≤ (tr i).state.regs.waitLimit (tr i).state.cfg := by
  obtain ⟨hr, -⟩ | ⟨-, hcount, hnext⟩ := step_cases (ht i)
  · exact absurd ((hn i).symm.trans hr) Bool.false_ne_true
  · rw [hnext]
    exact (busyEffect_of_busy _ (tr i).state.cfg (tr i).sample _ hb).advances_or_waits hcount

/-- With clock progress no hold or wait lasts for ever: its limit is passed at some instant, and the step there, or one
before it, ends or advances the cycle. -/
theorem busy_instant_advances (hn : neverReset tr) (hp : clockProgress tr) (hg : gapsBelowHalf tr) {i : Nat}
    (hl : ((tr i).state.regs.waitLimit (tr i).state.cfg).toNat < 2 ^ 63) (hb : (tr i).state.regs.busy = true) :
    ∃ k, (tr (i + k + 1)).state.regs.advancedBelow (tr i).state.regs.remaining := by
  by_contra! hstuck
  have hwaits {k : Nat} (hk : (tr (i + k)).state.regs = (tr i).state.regs) :=
    (busy_instant_advances_or_waits ht hn (i := i + k) (by rw [hk]; exact hb)).resolve_left (by rw [hk]; exact hstuck k)
  have hstays (k : Nat) : (tr (i + k)).state.regs = (tr i).state.regs := by
    induction k with
    | zero => rfl
    | succ k ih => exact (hwaits ih).1.trans ih
  obtain ⟨k, hk⟩ := deadline_passes tr hp hg i (tr i).state.regs.tMark _ hl
  obtain ⟨-, hwithin⟩ := hwaits (hstays k)
  rw [hstays k, cfg_of_isTrace ht i k] at hwithin
  exact BitVec.not_lt.mpr hwithin hk

end

/-! ## The obligations -/

/-- Settles O60, by induction on the advances the cycle has left: from every busy instant the run reaches one that ends
the cycle or leaves it fewer. -/
theorem everyCycleEndsUnderClockProgress : Obligations.EveryCycleEndsUnderClockProgress := by
  intro tr i ht hn hp hg hlow hrel hturn hedge hb
  induction hm : (tr i).state.regs.remaining using Nat.strong_induction_on generalizing i with
  | _ m ih =>
    have hl := waitLimit_toNat_lt (tr i).state.regs hlow hrel hturn hedge
    obtain ⟨k, hend | ⟨hbusy, hless⟩⟩ := busy_instant_advances ht hn hp hg hl hb
    · exact ⟨i + k + 1, by omega, hend⟩
    · rw [← cfg_of_isTrace ht i (k + 1)] at hlow hrel hturn hedge
      obtain ⟨j, hj, hend⟩ := ih _ (hm ▸ hless) (i + (k + 1)) hlow hrel hturn hedge hbusy rfl
      exact ⟨j, by omega, hend⟩

/-- Settles O8: the listing's answer is the answer of the instant, and its result the effect of the selected
micro-operation. -/
theorem stepMatchesConsolidatedListing : Obligations.StepMatchesConsolidatedListing := by
  intro s h
  cases hr : s.sample.rst with
  | true =>
    have hlisting : listingStep s.cfg s.regs s.sample = ⟨Regs.reset, .none, []⟩ := if_pos hr
    rw [step_of_rst hr, hlisting]
    rfl
  | false =>
    have hc : s.regs.bitCount.toNat ≤ 40 := h.resolve_left (by simp [hr])
    rw [step_of_not_rst s hr hc, listingStep_eq s.cfg s.sample hr, listingCommand_eq]
    rfl

/-- Settles O7: both are the answer of the instant with the effect of the selected micro-operation. -/
theorem commandViewAgreesWithMicroOpView : Obligations.CommandViewAgreesWithMicroOpView := by
  intro s c m hc hm
  rw [exec_of_command s c hc, runSelected_eq, exec_of_selected s m hm]

/-- Settles O9: a reset always goes on, and so does an instant without one whose count is reachable. -/
theorem everyLegalStateSteps : Obligations.EveryLegalStateSteps := by
  intro s hc
  cases hr : s.sample.rst with
  | true => exact ⟨_, step_of_rst hr⟩
  | false => exact ⟨_, step_of_not_rst s hr hc⟩

/-- Settles O15: a command is answered by its code, and `POLL` by the phase and the gate. -/
theorem commandAnswersInPriorityOrder : Obligations.CommandAnswersInPriorityOrder := by
  intro s
  refine ⟨commandAnswer_of_not_valid s, fun hv => ?_⟩
  rw [commandAnswer_of_valid hv]
  refine ⟨fun hc => if_pos hc, ?_, fun hc => ?_⟩
  · rintro (hc | hc) <;> rw [hc] <;> rfl
  · rw [hc]
    refine ⟨answerPoll_of_busy, fun hb hg => ?_, fun hb hg => ?_⟩
    · exact (answerPoll_of_not_busy hb).trans (if_pos hg)
    · exact (answerPoll_of_not_busy hb).trans (if_neg (by simp [hg]))

/-- Settles O17: a busy block accepts neither command, and no micro-operation looks at the command port. -/
theorem midCycleCommandChangesOnlyTheAnswer : Obligations.MidCycleCommandChangesOnlyTheAnswer := by
  intro s v c hb hc
  have hacc := commandAnswer_accept_of_busy s hb
  have hacc' := commandAnswer_accept_of_busy (s.withSample { s.sample with cmdValid := v, cmd := c }) hb
  cases hr : s.sample.rst with
  | true => exact ⟨_, _, step_of_rst hr, step_of_rst (by exact hr), rfl⟩
  | false =>
    refine ⟨_, _, step_of_not_rst s hr hc, step_of_not_rst _ (by exact hr) hc, ?_⟩
    rw [hacc, hacc', State.withSample_sample, State.withSample_cfg, State.withSample_regs, effectByFields_command]
    rfl

/-- Settles O53: at rest the micro-operation does nothing without `accept`. -/
theorem reportStandsUntilAcceptedPoll : Obligations.ReportStandsUntilAcceptedPoll := by
  intro s hp hr hc ha
  have hb : s.regs.busy = false := by
    obtain hp | hp := hp <;> rw [Regs.busy, hp] <;> rfl
  rw [step_of_not_rst s hr hc, ha, restEffect_of_not_busy _ _ _ _ hb]
  rfl

/-- Settles O12: the values a reset loads are R39's. -/
theorem resetStepLoadsEveryRegister : Obligations.ResetStepLoadsEveryRegister :=
  fun _ => step_of_rst

end Sys2Proof.Machine

/-! # Proofs for the statements of 41_edge_timer.md: one EdgeTimer step, and the contract as a run -/

namespace Sys2Proof.Machine

/-! ## One EdgeTimer step (R143) -/

/-- Elapsed time is the difference modulo 2^64 (R11). -/
theorem dur_toNat (now t : Time) : (dur now t).toNat = (now.toNat + 2 ^ 64 - t.toNat) % 2 ^ 64 := by
  unfold dur
  bv_omega

/-- An unchanged level past the deadline is a `Timeout`. -/
theorem edgeStep_of_late {r : Regs} {x : Input} {timeout : Time} (he : x.pinIn = r.refLevel)
    (hd : timeout < dur x.now r.tMark) : edgeStep r x timeout = .timeout := by
  obtain ⟨hne, -⟩ | ⟨-, -, h⟩ | ⟨-, hle, -⟩ := edgeStep_cases r x timeout
  · exact absurd he hne
  · exact h
  · exact absurd hd (BitVec.not_lt.mpr hle)

/-- The wait goes on exactly at an unchanged level within the deadline. -/
theorem edgeStep_eq_pending_iff {r : Regs} {x : Input} {timeout : Time} :
    edgeStep r x timeout = .pending ↔ x.pinIn = r.refLevel ∧ dur x.now r.tMark ≤ timeout := by
  obtain ⟨he, h⟩ | ⟨-, hd, h⟩ | ⟨he, hd, h⟩ := edgeStep_cases r x timeout
  · simp [h, he]
  · simp [h, BitVec.not_le.mpr hd]
  · simp [h, he, hd]

/-- The two decisive outcomes of a sample: a changed level, or an unchanged one past the deadline. -/
theorem edgeStep_decisive_iff {r : Regs} {x : Input} {timeout : Time} {out : EdgeOutcome} :
    edgeStep r x timeout ≠ .pending ∧ edgeStep r x timeout = out ↔
      (x.pinIn ≠ r.refLevel ∧ out = .edge { level := x.pinIn, duration := dur x.now r.tMark }) ∨
        (x.pinIn = r.refLevel ∧ timeout < dur x.now r.tMark ∧ out = .timeout) := by
  obtain ⟨he, h⟩ | ⟨he, hd, h⟩ | ⟨he, hd, h⟩ := edgeStep_cases r x timeout
  · simp [h, he, eq_comm (a := out)]
  · simp [h, he, hd, eq_comm (a := out)]
  · simp [h, he, BitVec.not_lt.mpr hd]

/-! ## The contract as a run (R144) -/

/-- A sample at which the wait goes on is passed over. -/
theorem awaitEdge_cons_of_pending {r : Regs} {x : Input} {timeout : Time} (xs : List Input)
    (h : edgeStep r x timeout = .pending) : awaitEdge timeout r (x :: xs) = awaitEdge timeout r xs := by
  simp [awaitEdge, h]

/-- A decisive sample ends the wait with its outcome. -/
theorem awaitEdge_cons_of_ne_pending {r : Regs} {x : Input} {timeout : Time} (xs : List Input)
    (h : edgeStep r x timeout ≠ .pending) : awaitEdge timeout r (x :: xs) = some (edgeStep r x timeout) := by
  rw [awaitEdge]
  split
  · exact absurd ‹_› h
  · exact congrArg some (Eq.symm ‹_›)
  · exact congrArg some (Eq.symm ‹_›)

/-- A wait returns the outcome of the first sample at which it does not go on. -/
theorem awaitEdge_eq_map_find? (timeout : Time) (r : Regs) (xs : List Input) :
    awaitEdge timeout r xs =
      (xs.find? (fun x => edgeStep r x timeout ≠ .pending)).map (fun x => edgeStep r x timeout) := by
  induction xs with
  | nil => rfl
  | cons x xs ih =>
    by_cases h : edgeStep r x timeout = .pending
    · rw [awaitEdge_cons_of_pending xs h, ih, List.find?_cons_of_neg (by simpa using h)]
    · rw [awaitEdge_cons_of_ne_pending xs h, List.find?_cons_of_pos (by simpa using h), Option.map_some]

/-- The same by positions in the sample list. -/
theorem awaitEdge_eq_some_iff {timeout : Time} {r : Regs} {xs : List Input} {out : EdgeOutcome} :
    awaitEdge timeout r xs = some out ↔
      ∃ (j : Nat) (y : Input), xs[j]? = some y ∧
        (∀ (k : Nat) (z : Input), k < j → xs[k]? = some z → edgeStep r z timeout = .pending) ∧
        edgeStep r y timeout ≠ .pending ∧ edgeStep r y timeout = out := by
  simp only [awaitEdge_eq_map_find?, Option.map_eq_some_iff, List.find?_eq_some_iff_getElem, decide_eq_true_eq,
    Bool.not_eq_true', decide_eq_false_iff_not, not_not]
  constructor
  · rintro ⟨y, ⟨hy, j, hj, hjy, hbefore⟩, hout⟩
    refine ⟨j, y, List.getElem?_eq_some_iff.mpr ⟨hj, hjy⟩, fun k z hk hz => ?_, hy, hout⟩
    obtain ⟨-, rfl⟩ := List.getElem?_eq_some_iff.mp hz
    exact hbefore k hk
  · rintro ⟨j, y, hjy, hbefore, hy, hout⟩
    obtain ⟨hj, hjy⟩ := List.getElem?_eq_some_iff.mp hjy
    exact ⟨y, ⟨hy, j, hj, hjy, fun k hk => hbefore k _ hk (List.getElem?_eq_getElem (hk.trans hj))⟩, hout⟩

/-! ## The obligations -/

/-- Settles O36: the entry sample sets the level and the mark, and of the samples after it the first decisive one ends
the wait. -/
theorem waitForEdgeReturnsAtFirstDecisiveSample : Obligations.WaitForEdgeReturnsAtFirstDecisiveSample := by
  intro timeout r x xs out
  rw [waitForEdge, awaitEdge_eq_some_iff]
  simp only [edgeStep_eq_pending_iff, edgeStep_decisive_iff, arm_refLevel, arm_tMark]

/-- Settles O35: each outcome is the one its case of `edge_step` answers. -/
theorem edgeStepTestsLevelThenDeadline : Obligations.EdgeStepTestsLevelThenDeadline :=
  fun _ x timeout => ⟨dur_toNat x.now _, edgeStep_of_ne timeout, edgeStep_of_late,
    fun he hd => edgeStep_eq_pending_iff.mpr ⟨he, hd⟩⟩

end Sys2Proof.Machine

/-! # Proofs for the statements of 42_handshake_sequencer.md: each micro-operation, the arrows of the phase, the start
pulse, the length of a cycle -/

namespace Sys2Proof.Machine

/-! ## The resting micro-operations (R161, R170, R171) -/

/-- The three resting micro-operations start a cycle with `accept`, and do nothing without it. -/
theorem exec_resting {m : Instr} (hm : m = .seqIdle ∨ m = .seqDone ∨ m = .seqFailed) (s : State) :
    exec m s =
      .next (commit s (commandAnswer s).rsp
        (if (commandAnswer s).accept then startCycle s.sample s.regs else ⟨s.regs, []⟩)) := by
  obtain rfl | rfl | rfl := hm <;> rfl

/-- The start of a cycle the port takes (R214). -/
theorem startCycle_of_ioErr_false {x : Input} (hi : x.ioErr = false) (r : Regs) :
    startCycle x r = ⟨cycleStarted x.now r, [.configure .output, .write true]⟩ := by
  rw [startCycle, if_neg (by simp [hi])]
  rfl

/-- The start of a cycle the port refuses (R215). -/
theorem startCycle_of_ioErr_true {x : Input} (hi : x.ioErr = true) (r : Regs) :
    startCycle x r =
      ⟨cycleRefusedByPort x.now r, [.configure .output, .write true, .configure .output, .write true]⟩ := by
  rw [startCycle, if_pos hi]
  rfl

/-! ## The start pulse (R162 to R164) -/

theorem exec_seqReqHigh (s : State) :
    exec .seqReqHigh s = .next (commit s (commandAnswer s).rsp (seqReqHigh s.sample s.regs)) := rfl

theorem exec_seqReqLow (s : State) :
    exec .seqReqLow s = .next (commit s (commandAnswer s).rsp (seqReqLow s.cfg s.sample s.regs)) := rfl

theorem exec_seqReqRelease (s : State) :
    exec .seqReqRelease s = .next (commit s (commandAnswer s).rsp (seqReqRelease s.cfg s.sample s.regs)) := rfl

theorem seqReqHigh_of_ioErr_false {x : Input} (hi : x.ioErr = false) (r : Regs) :
    seqReqHigh x r = ⟨{ r with pinOut := false, tMark := x.now, reqStep := .reqLow }, [.write false]⟩ :=
  if_neg (by simp [hi])

theorem seqReqHigh_of_ioErr_true {x : Input} (hi : x.ioErr = true) (r : Regs) :
    seqReqHigh x r = fail .ioError [.write false] r :=
  if_pos hi

/-- A hold is not over before its time. -/
theorem holdOver_eq_false {r : Regs} {x : Input} {hold : Time} (hd : dur x.now r.tMark < hold) :
    holdOver r x hold = false :=
  decide_eq_false (BitVec.not_le.mpr hd)

/-- A hold is over from its time on. -/
theorem holdOver_eq_true {r : Regs} {x : Input} {hold : Time} (hd : hold ≤ dur x.now r.tMark) :
    holdOver r x hold = true :=
  decide_eq_true hd

theorem seqReqLow_of_early {cfg : Config} {x : Input} {r : Regs} (hd : dur x.now r.tMark < cfg.tStartLow) :
    seqReqLow cfg x r = ⟨r, []⟩ := by
  rw [seqReqLow, holdOver_eq_false hd, if_neg Bool.false_ne_true]

theorem seqReqLow_of_over {cfg : Config} {x : Input} {r : Regs} (hd : cfg.tStartLow ≤ dur x.now r.tMark) :
    seqReqLow cfg x r =
      if x.ioErr then fail .ioError [.write true] r
      else ⟨{ r with pinOut := true, tMark := x.now, reqStep := .reqRelease }, [.write true]⟩ := by
  rw [seqReqLow, holdOver_eq_true hd, if_pos rfl]

theorem seqReqRelease_of_early {cfg : Config} {x : Input} {r : Regs} (hd : dur x.now r.tMark < cfg.tRelease) :
    seqReqRelease cfg x r = ⟨r, []⟩ := by
  rw [seqReqRelease, holdOver_eq_false hd, if_neg Bool.false_ne_true]

theorem seqReqRelease_of_over {cfg : Config} {x : Input} {r : Regs} (hd : cfg.tRelease ≤ dur x.now r.tMark) :
    seqReqRelease cfg x r =
      if x.ioErr then fail .ioError [.configure .input] r
      else ⟨{ r with pinDir := .input, armed := false, reqStep := .reqTurn }, [.configure .input]⟩ := by
  rw [seqReqRelease, holdOver_eq_true hd, if_pos rfl]

/-! ## The three response waits (R167 to R169) -/

/-- What `SEQ.TURN_WAIT`, `SEQ.ACK_LOW` and `SEQ.ACK_HIGH` have in common: a wait for an edge, which leads to the phase
`dest` when `accepts` holds of it. -/
def responseWait (timeout : Time) (accepts : EdgeMeasurement → Bool) (dest : Phase) (x : Input) (r : Regs) : Effect :=
  match edgeStep r x timeout with
  | .pending => ⟨r, [.read]⟩
  | .timeout => fail .edgeTimeout [.read] r
  | .edge m =>
    if accepts m then ⟨{ rearm x r with phase := dest }, [.read]⟩ else fail .timingViolation [.read] r

theorem exec_seqTurnWait (s : State) :
    exec .seqTurnWait s = .next (commit s (commandAnswer s).rsp
      (responseWait s.cfg.tTurnaround (turnOk s.cfg) .awaitingResponseLow s.sample s.regs)) := rfl

/-- The wait of `SEQ.ACK_LOW` and `SEQ.ACK_HIGH`: an edge is accepted inside the closed window. -/
def ackWait (cfg : Config) (dest : Phase) (x : Input) (r : Regs) : Effect :=
  responseWait cfg.tEdgeTimeout (fun m => inAckWindow cfg m.duration) dest x r

theorem exec_seqAckLow (s : State) :
    exec .seqAckLow s = .next (commit s (commandAnswer s).rsp
      (ackWait s.cfg .awaitingResponseHigh s.sample s.regs)) := rfl

theorem exec_seqAckHigh (s : State) :
    exec .seqAckHigh s = .next (commit s (commandAnswer s).rsp (ackWait s.cfg .readingBits s.sample s.regs)) := rfl

section
variable {timeout : Time} {accepts : EdgeMeasurement → Bool} {dest : Phase} {x : Input} {r : Regs}

theorem responseWait_of_pending (he : x.pinIn = r.refLevel) (hd : dur x.now r.tMark ≤ timeout) :
    responseWait timeout accepts dest x r = ⟨r, [.read]⟩ := by
  rw [responseWait, edgeStep_eq_pending_iff.mpr ⟨he, hd⟩]

theorem responseWait_of_late (he : x.pinIn = r.refLevel) (hd : timeout < dur x.now r.tMark) :
    responseWait timeout accepts dest x r = fail .edgeTimeout [.read] r := by
  rw [responseWait, edgeStep_of_late he hd]

theorem responseWait_of_accepted (he : x.pinIn ≠ r.refLevel) (ha : accepts ⟨x.pinIn, dur x.now r.tMark⟩ = true) :
    responseWait timeout accepts dest x r = ⟨{ rearm x r with phase := dest }, [.read]⟩ := by
  rw [responseWait, edgeStep_of_ne _ he]
  exact if_pos ha

theorem responseWait_of_rejected (he : x.pinIn ≠ r.refLevel) (ha : accepts ⟨x.pinIn, dur x.now r.tMark⟩ = false) :
    responseWait timeout accepts dest x r = fail .timingViolation [.read] r := by
  rw [responseWait, edgeStep_of_ne _ he]
  exact if_neg (by simp [ha])

end

/-- `turn_ok` on an edge, as R167 says it. -/
theorem turnOk_eq_decide (cfg : Config) (b : Level) (d : Time) :
    turnOk cfg ⟨b, d⟩ = decide (b = false ∧ d ≤ cfg.tTurnaround) := by
  cases b <;> simp [turnOk]

/-- `in_ack_window`, as R168 says it. -/
theorem inAckWindow_eq_decide (cfg : Config) (d : Time) :
    inAckWindow cfg d = decide (cfg.tAckMin ≤ d ∧ d ≤ cfg.tAckMax) := by
  simp [inAckWindow]

/-- The four cases of a wait for a pulse in the window (R168, R169). -/
theorem exec_of_ackWait {m : Instr} {dest : Phase} {s : State}
    (hexec : exec m s = .next (commit s (commandAnswer s).rsp (ackWait s.cfg dest s.sample s.regs))) :
    (s.sample.pinIn = s.regs.refLevel → dur s.sample.now s.regs.tMark ≤ s.cfg.tEdgeTimeout →
      exec m s = .next (afterInstant s (commandAnswer s).rsp s.regs [.read])) ∧
    (s.sample.pinIn = s.regs.refLevel → s.cfg.tEdgeTimeout < dur s.sample.now s.regs.tMark →
      exec m s = .next (afterInstant s (commandAnswer s).rsp (failedRegs .edgeTimeout s.regs)
        [.read, .configure .output, .write true])) ∧
    (s.sample.pinIn ≠ s.regs.refLevel →
      s.cfg.tAckMin ≤ dur s.sample.now s.regs.tMark ∧ dur s.sample.now s.regs.tMark ≤ s.cfg.tAckMax →
      exec m s = .next (afterInstant s (commandAnswer s).rsp
        { s.regs with phase := dest, refLevel := s.sample.pinIn, tMark := s.sample.now } [.read])) ∧
    (s.sample.pinIn ≠ s.regs.refLevel →
      ¬(s.cfg.tAckMin ≤ dur s.sample.now s.regs.tMark ∧ dur s.sample.now s.regs.tMark ≤ s.cfg.tAckMax) →
      exec m s = .next (afterInstant s (commandAnswer s).rsp (failedRegs .timingViolation s.regs)
        [.read, .configure .output, .write true])) := by
  rw [hexec, ackWait]
  refine ⟨fun he hd => ?_, fun he hd => ?_, fun he hd => ?_, fun he hd => ?_⟩
  · rw [responseWait_of_pending he hd]; rfl
  · rw [responseWait_of_late he hd]; rfl
  · rw [responseWait_of_accepted he (by rw [inAckWindow_eq_decide, decide_eq_true hd])]; rfl
  · rw [responseWait_of_rejected he (by rw [inAckWindow_eq_decide, decide_eq_false hd])]; rfl

/-! ## The arrows of the phase (R160) -/

/-- A running cycle keeps its phase or moves it along an arrow. -/
theorem BusyEffect.phaseArrow {cfg : Config} {x : Input} {r : Regs} {e : Effect} (h : BusyEffect cfg x r e) :
    e.regs.phase = r.phase ∨ phaseArrow r.phase e.regs.phase = true := by
  cases h with
  | drivesLow | holdsLow | drivesHigh | holdsHigh | switchesToInput | arms | turnPending | ackPending | bitPending
  | lowHalfEnds | bitTaken => exact .inl rfl
  | portRefusesLow hp | portRefusesHigh hp | portRefusesInput hp | turnTimeout hp | turnAccepted hp | turnRejected hp
  | ackLowAccepted hp | ackHighAccepted hp | bitTimeoutInvalid hp | bitTimeoutAbort hp | lastBitTaken hp =>
    rw [hp]
    exact .inr rfl
  | ackTimeout hp | ackRejected hp => obtain hp | hp := hp <;> rw [hp] <;> exact .inr rfl

/-- The start of a cycle at rest, refused by the port or not, moves the phase along an arrow, or from `Failed` to
`Failed`. -/
theorem startCycle_phaseArrow (x : Input) {r : Regs} (hb : r.busy = false) :
    (startCycle x r).regs.phase = r.phase ∨ phaseArrow r.phase (startCycle x r).regs.phase = true := by
  have hrest : r.phase = .idle ∨ r.phase = .done ∨ r.phase = .failed := by
    revert hb
    unfold Regs.busy
    cases r.phase <;> simp [Phase.isBusy]
  have hdest : (startCycle x r).regs.phase = .requesting ∨ (startCycle x r).regs.phase = .failed := by
    obtain ⟨-, h⟩ | ⟨-, h⟩ := startCycle_cases x r <;> rw [h]
    · exact .inr rfl
    · exact .inl rfl
  obtain hp | hp | hp := hrest <;> obtain h | h := hdest <;> rw [hp, h] <;> decide

/-! ## The start of a cycle as a step (R214, R215) -/

/-- A step that answers `ACCEPTED` starts a cycle and does nothing else. -/
theorem step_accepted {s t : State} (h : step s = .next t) (ha : t.rsp = .accepted) :
    t = commit s .accepted (startCycle s.sample s.regs) := by
  obtain ⟨-, rfl⟩ | ⟨-, -, rfl⟩ := step_cases h
  · cases ha
  · rw [commit_rsp] at ha
    have hacc : (commandAnswer s).accept = true := (commandAnswer_accept_iff s).mpr ha
    cases hb : s.regs.busy with
    | true => exact absurd (commandAnswer_accept_of_busy s hb) (by simp [hacc])
    | false => rw [restEffect_of_not_busy _ _ _ _ hb, ha, if_pos hacc]

/-! ## The history of a run -/

/-- The actions of the first step come first. -/
theorem history_succ {s t : State} (n : Nat) (h : step s = .next t) : history (n + 1) s = t.actions ++ history n t := by
  rw [history, h]

/-- The actions of the last step come last. -/
theorem history_snoc {s t u : State} {n : Nat} (hrun : runSteps n s = .next t) (h : step t = .next u) :
    history (n + 1) s = history n s ++ u.actions := by
  induction n generalizing s with
  | zero =>
    cases hrun
    rw [history_succ 0 h, history, history, List.append_nil, List.nil_append]
  | succ n ih =>
    cases hs : step s with
    | next v =>
      rw [runSteps_succ n hs] at hrun
      rw [history_succ (n + 1) hs, history_succ n hs, ih hrun, List.append_assoc]
    | fault r => rw [runSteps_succ_fault n hs] at hrun; cases hrun
    | refused r => exact absurd hs (step_ne_refused s r)

/-! ## The start pulse as a run (R166) -/

/-- Sub-step `q` of the request, its hold measured from `mark`: no wait is armed and no bit counted. -/
structure Regs.InSubStep (q : ReqStep) (mark : Time) (r : Regs) : Prop where
  phase_eq : r.phase = .requesting
  reqStep_eq : r.reqStep = q
  mark_eq : r.tMark = mark
  armed_eq : r.armed = false
  bitCount_eq : r.bitCount = 0

/-- After `k` steps from `t` the block has issued `as` and stands in sub-step `q`. -/
structure ReachesSubStep (t : State) (k : Nat) (q : ReqStep) (mark : Time) (as : List Action) (w : State) : Prop where
  run : runSteps k t = .next w
  history_eq : history k t = as
  cfg_eq : w.cfg = t.cfg
  inputs_eq : w.inputs = t.inputs.drop k
  regs : w.regs.InSubStep q mark

section
variable {t w : State} {k : Nat} {q q' : ReqStep} {mark mark' : Time} {as : List Action} {x : Input} {e : Effect}

/-- In a sub-step of the request the step has the effect of its micro-operation. -/
theorem ReachesSubStep.step_eq (h : ReachesSubStep t k q mark as w) (hx : t.inputs[k]? = some x) (hr : x.rst = false)
    (he : effectByFields (commandAnswer w).accept t.cfg x w.regs = e) :
    step w = .next (commit w (commandAnswer w).rsp e) := by
  have hs : w.sample = x := sample_of_inputs_drop h.inputs_eq hx
  rw [step_of_not_rst w (by rw [hs, hr]) (by simp [h.regs.bitCount_eq]), h.cfg_eq, hs, he]

/-- The actions of that step are added to the history. -/
theorem ReachesSubStep.history_succ (h : ReachesSubStep t k q mark as w) (hx : t.inputs[k]? = some x)
    (hr : x.rst = false) (he : effectByFields (commandAnswer w).accept t.cfg x w.regs = e) :
    history (k + 1) t = as ++ e.actions := by
  rw [history_snoc h.run (h.step_eq hx hr he), h.history_eq, commit_actions]

/-- The step leads to whatever sub-step its effect leaves. -/
theorem ReachesSubStep.next (h : ReachesSubStep t k q mark as w) (hx : t.inputs[k]? = some x) (hr : x.rst = false)
    (he : effectByFields (commandAnswer w).accept t.cfg x w.regs = e) (hq : e.regs.InSubStep q' mark') :
    ∃ v, ReachesSubStep t (k + 1) q' mark' (as ++ e.actions) v :=
  ⟨_, {
    run := (runSteps_snoc k h.run).trans (h.step_eq hx hr he)
    history_eq := h.history_succ hx hr he
    cfg_eq := h.cfg_eq
    inputs_eq := by rw [commit_inputs, h.inputs_eq, List.tail_drop]
    regs := hq }⟩

/-- A hold changes and issues nothing as long as its micro-operation does nothing. -/
theorem ReachesSubStep.hold {i j : Nat} {xs : Nat → Input} (h : ReachesSubStep t i q mark as w) (hij : i ≤ j)
    (hx : ∀ k < j, t.inputs[k]? = some (xs k) ∧ (xs k).rst = false)
    (he : ∀ k, i ≤ k → k < j → ∀ (a : Bool) (r : Regs), r.InSubStep q mark →
      effectByFields a t.cfg (xs k) r = ⟨r, []⟩) :
    ∃ v, ReachesSubStep t j q mark as v := by
  induction j, hij using Nat.le_induction with
  | base => exact ⟨w, h⟩
  | succ j hij ih =>
    obtain ⟨v, hv⟩ := ih (fun k hk => hx k (by omega)) (fun k hk hk' => he k hk (by omega))
    obtain ⟨hlist, hrst⟩ := hx j (by omega)
    simpa using hv.next hlist hrst (he j hij (by omega) _ _ hv.regs) hv.regs

end

/-! The micro-operation of each sub-step. -/

section
variable {mark : Time} {r : Regs} (a : Bool) (cfg : Config) (x : Input)

theorem Regs.InSubStep.effect_reqHigh (h : r.InSubStep .reqHigh mark) : effectByFields a cfg x r = seqReqHigh x r := by
  simp only [effectByFields, h.phase_eq, h.reqStep_eq]

theorem Regs.InSubStep.effect_reqLow (h : r.InSubStep .reqLow mark) : effectByFields a cfg x r = seqReqLow cfg x r := by
  simp only [effectByFields, h.phase_eq, h.reqStep_eq]

theorem Regs.InSubStep.effect_reqRelease (h : r.InSubStep .reqRelease mark) :
    effectByFields a cfg x r = seqReqRelease cfg x r := by
  simp only [effectByFields, h.phase_eq, h.reqStep_eq]

theorem Regs.InSubStep.effect_reqTurn (h : r.InSubStep .reqTurn mark) : effectByFields a cfg x r = seqTurnArm x r := by
  simp only [effectByFields, h.phase_eq, h.reqStep_eq, h.armed_eq, if_false, Bool.false_eq_true]

end

section
variable {t w : State} {k : Nat} {mark : Time} {as : List Action} {x : Input}

/-- The write of 0 begins the low hold. -/
theorem ReachesSubStep.drivesLow (h : ReachesSubStep t k .reqHigh mark as w) (hx : t.inputs[k]? = some x)
    (hr : x.rst = false) (hi : x.ioErr = false) :
    ∃ v, ReachesSubStep t (k + 1) .reqLow x.now (as ++ [.write false]) v :=
  h.next hx hr ((h.regs.effect_reqHigh _ _ _).trans (seqReqHigh_of_ioErr_false hi _))
    ⟨h.regs.phase_eq, rfl, rfl, h.regs.armed_eq, h.regs.bitCount_eq⟩

/-- The write of 1 ends the low hold and begins the release hold. -/
theorem ReachesSubStep.drivesHigh (h : ReachesSubStep t k .reqLow mark as w) (hx : t.inputs[k]? = some x)
    (hr : x.rst = false) (hi : x.ioErr = false) (hd : t.cfg.tStartLow ≤ dur x.now mark) :
    ∃ v, ReachesSubStep t (k + 1) .reqRelease x.now (as ++ [.write true]) v := by
  rw [← h.regs.mark_eq] at hd
  have he := (h.regs.effect_reqLow (commandAnswer w).accept _ _).trans (seqReqLow_of_over hd)
  rw [hi, if_neg Bool.false_ne_true] at he
  exact h.next hx hr he ⟨h.regs.phase_eq, rfl, rfl, h.regs.armed_eq, h.regs.bitCount_eq⟩

/-- The switch to Input ends the release hold. -/
theorem ReachesSubStep.switchesToInput (h : ReachesSubStep t k .reqRelease mark as w) (hx : t.inputs[k]? = some x)
    (hr : x.rst = false) (hi : x.ioErr = false) (hd : t.cfg.tRelease ≤ dur x.now mark) :
    ∃ v, ReachesSubStep t (k + 1) .reqTurn mark (as ++ [.configure .input]) v := by
  rw [← h.regs.mark_eq] at hd
  have he := (h.regs.effect_reqRelease (commandAnswer w).accept _ _).trans (seqReqRelease_of_over hd)
  rw [hi, if_neg Bool.false_ne_true] at he
  exact h.next hx hr he ⟨h.regs.phase_eq, rfl, h.regs.mark_eq, rfl, h.regs.bitCount_eq⟩

end

/-! ## The length of a cycle (R283) -/

/-- The registers time a hold or wait from the mark: not before the low hold begins, and not before the EdgeTimer's
entry sample. -/
def Regs.timed (r : Regs) : Bool :=
  match r.phase with
  | .requesting =>
    match r.reqStep with
    | .reqHigh => false
    | .reqLow | .reqRelease => true
    | .reqTurn => r.armed
  | _ => true

/-- How long the hold or wait in progress has lasted at time `p`, 0 where none is timed. -/
def Regs.waited (p : Time) (r : Regs) : Nat :=
  if r.timed then (dur p r.tMark).toNat else 0

/-- The limit of the hold or wait in progress, 0 where none is timed. -/
def Regs.waitBound (cfg : Config) (r : Regs) : Nat :=
  if r.timed then (r.waitLimit cfg).toNat else 0

/-- How long the cycle can go on after the hold or wait in progress: every later one lasts its limit and one sample gap,
as R283 counts them. -/
def Regs.timeAfter (cfg : Config) (gap : Nat) (r : Regs) : Nat :=
  match r.phase with
  | .requesting =>
    match r.reqStep with
    | .reqHigh =>
      cfg.tStartLow.toNat + cfg.tRelease.toNat + cfg.tTurnaround.toNat + 4 * gap + 82 * (cfg.tEdgeTimeout.toNat + gap)
    | .reqLow => cfg.tRelease.toNat + cfg.tTurnaround.toNat + 3 * gap + 82 * (cfg.tEdgeTimeout.toNat + gap)
    | .reqRelease => cfg.tTurnaround.toNat + 2 * gap + 82 * (cfg.tEdgeTimeout.toNat + gap)
    | .reqTurn =>
      (if r.armed then 0 else cfg.tTurnaround.toNat + gap) + 82 * (cfg.tEdgeTimeout.toNat + gap)
  | .awaitingResponseLow => 81 * (cfg.tEdgeTimeout.toNat + gap)
  | .awaitingResponseHigh => 80 * (cfg.tEdgeTimeout.toNat + gap)
  | .readingBits => (79 - 2 * r.bitCount.toNat - r.half.toNat) * (cfg.tEdgeTimeout.toNat + gap)
  | .idle | .done | .failed => 0

/-- How long the cycle can go on from the mark of the hold or wait in progress. -/
def Regs.timeLeft (cfg : Config) (gap : Nat) (r : Regs) : Nat :=
  r.waitBound cfg + gap + r.timeAfter cfg gap

/-- The bound counts from the accepted `POLL`: its step is followed by the whole cycle. -/
theorem timeLeft_of_cycleStarted (cfg : Config) (gap : Nat) (now : Time) (r : Regs) :
    (cycleStarted now r).timeLeft cfg gap = cfg.longestCycle gap := by
  simp only [Regs.timeLeft, Regs.waitBound, Regs.timed, Regs.timeAfter, Config.longestCycle, Bool.false_eq_true,
    if_false]
  omega

/-- Every single limit and one gap are in the bound. -/
theorem waitBound_add_gap_le (cfg : Config) (gap : Nat) (r : Regs) :
    r.waitBound cfg + gap ≤ cfg.longestCycle gap := by
  have hlimit : (r.waitLimit cfg).toNat + gap ≤ cfg.longestCycle gap := by
    unfold Regs.waitLimit Config.longestCycle
    cases r.phase with
    | requesting => cases r.reqStep <;> simp only <;> omega
    | _ => simp only; omega
  unfold Regs.waitBound
  split <;> omega

/-- A sample advances the cycle: what is timed from now on is timed from it, and what then can follow was counted
before. -/
structure Advances (cfg : Config) (gap : Nat) (now : Time) (r r' : Regs) : Prop where
  mark_eq : r'.timed = true → r'.tMark = now
  timeLeft_le : r'.timeLeft cfg gap ≤ r.timeAfter cfg gap

/-- One half of a payload bit more leaves one wait less. -/
theorem mul_wait_le {m n : Nat} (w : Nat) (h : m + 1 ≤ n) : w + m * w ≤ n * w := by
  calc w + m * w = (m + 1) * w := by rw [Nat.succ_mul, Nat.add_comm]
    _ ≤ n * w := Nat.mul_le_mul_right w h

/-- While a cycle runs a sample ends it, or falls within the limit of a hold or wait and changes nothing, or advances it
(R162 to R169, R191, R194). -/
theorem BusyEffect.ends_waits_or_advances {cfg : Config} {x : Input} {r : Regs} {e : Effect} (h : BusyEffect cfg x r e)
    (gap : Nat) (hcount : r.bitCount.toNat < 40) :
    e.regs.busy = false ∨ (e.regs = r ∧ r.timed = true ∧ dur x.now r.tMark ≤ r.waitLimit cfg) ∨
      Advances cfg gap x.now r e.regs := by
  cases h with
  | portRefusesLow | portRefusesHigh | portRefusesInput | turnTimeout | turnRejected | ackTimeout | ackRejected
  | bitTimeoutAbort | bitTimeoutInvalid | lastBitTaken => exact .inl rfl
  | holdsLow hp hq hd | holdsHigh hp hq hd =>
    exact .inr (.inl ⟨rfl, by simp [Regs.timed, hp, hq],
      by simpa [Regs.waitLimit, hp, hq] using BitVec.le_of_lt hd⟩)
  | turnPending hp hq ha hw =>
    obtain ⟨-, hd⟩ := hw
    exact .inr (.inl ⟨rfl, by simp [Regs.timed, hp, hq, ha], by simpa [Regs.waitLimit, hp, hq] using hd⟩)
  | ackPending hp hw =>
    obtain ⟨-, hd⟩ := hw
    obtain hp | hp := hp <;>
      exact .inr (.inl ⟨rfl, by simp [Regs.timed, hp], by simpa [Regs.waitLimit, hp] using hd⟩)
  | bitPending hp hw =>
    obtain ⟨-, hd⟩ := hw
    exact .inr (.inl ⟨rfl, by simp [Regs.timed, hp], by simpa [Regs.waitLimit, hp] using hd⟩)
  | drivesLow hp hq | drivesHigh hp hq =>
    refine .inr (.inr ⟨fun _ => rfl, ?_⟩)
    simp only [Regs.timeLeft, Regs.waitBound, Regs.timed, Regs.waitLimit, Regs.timeAfter, hp, hq, if_true]
    omega
  | switchesToInput hp hq =>
    refine .inr (.inr ⟨by simp [Regs.timed, hp], ?_⟩)
    simp only [Regs.timeLeft, Regs.waitBound, Regs.timed, Regs.timeAfter, hp, hq, if_false, Bool.false_eq_true]
    omega
  | arms hp hq ha =>
    refine .inr (.inr ⟨fun _ => rfl, ?_⟩)
    simp only [Regs.timeLeft, Regs.waitBound, Regs.timed, Regs.waitLimit, Regs.timeAfter, arm_phase, arm_reqStep,
      arm_armed, hp, hq, ha, if_true, if_false, Bool.false_eq_true]
    omega
  | turnAccepted hp hq ha =>
    refine .inr (.inr ⟨fun _ => rfl, ?_⟩)
    simp only [Regs.timeLeft, Regs.waitBound, Regs.timed, Regs.waitLimit, Regs.timeAfter, hp, hq, ha, if_true]
    omega
  | ackLowAccepted hp =>
    refine .inr (.inr ⟨fun _ => rfl, ?_⟩)
    simp only [Regs.timeLeft, Regs.waitBound, Regs.timed, Regs.waitLimit, Regs.timeAfter, hp, if_true]
    omega
  | ackHighAccepted hp =>
    refine .inr (.inr ⟨fun _ => rfl, ?_⟩)
    simp only [Regs.timeLeft, Regs.waitBound, Regs.timed, Regs.waitLimit, Regs.timeAfter, hp, if_true, rearm_half,
      rearm_bitCount]
    exact mul_wait_le _ (by omega)
  | lowHalfEnds hp hh =>
    refine .inr (.inr ⟨fun _ => rfl, ?_⟩)
    simp only [Regs.timeLeft, Regs.waitBound, Regs.timed, Regs.waitLimit, Regs.timeAfter, hp, hh, if_true, rearm_phase,
      rearm_bitCount, Bool.toNat_true, Bool.toNat_false]
    exact mul_wait_le _ (by omega)
  | bitTaken hp hh he hn =>
    refine .inr (.inr ⟨fun _ => rfl, ?_⟩)
    have hnot39 : r.bitCount.toNat ≠ 39 := fun h39 => hn (BitVec.eq_of_toNat_eq h39)
    simp only [Regs.timeLeft, Regs.waitBound, Regs.timed, Regs.waitLimit, Regs.timeAfter, takeBit_phase,
      takeBit_bitCount, takeBit_half, bitCount_succ_toNat hcount, hp, hh, if_true, Bool.toNat_true, Bool.toNat_false]
    exact mul_wait_le _ (by omega)

/-- Elapsed time is additive modulo 2^64. -/
theorem dur_toNat_add (y p t : Time) : (dur y t).toNat = ((dur p t).toNat + (dur y p).toNat) % 2 ^ 64 := by
  unfold dur
  bv_omega

/-- At time `p` the cycle that began at `start` is on schedule: the hold or wait in progress has not passed its limit,
and the whole cycle fits R283's bound. -/
structure OnSchedule (cfg : Config) (gap : Nat) (start p : Time) (r : Regs) : Prop where
  waited_le : r.waited p ≤ r.waitBound cfg
  total_le : (dur p start).toNat + r.timeLeft cfg gap ≤ cfg.longestCycle gap + r.waited p

section
variable {cfg : Config} {gap : Nat} {start p : Time} {r : Regs} {x : Input}

/-- The next sample of a cycle on schedule is within the bound. -/
theorem OnSchedule.dur_le (h : OnSchedule cfg gap start p r) (hg : (dur x.now p).toNat ≤ gap) :
    (dur x.now start).toNat ≤ cfg.longestCycle gap := by
  obtain ⟨hwaited, htotal⟩ := h
  unfold Regs.timeLeft at htotal
  rw [dur_toNat_add x.now p start]
  exact (Nat.mod_le _ _).trans (by omega)

/-- What is waited out has lasted one gap more at the next sample: below the bound the clock does not wrap. -/
theorem OnSchedule.waited_add (h : OnSchedule cfg gap start p r) (hg : (dur x.now p).toNat ≤ gap)
    (hb : cfg.longestCycle gap < 2 ^ 64) (ht : r.timed = true) :
    r.waited x.now = r.waited p + (dur x.now p).toNat := by
  have hwaited := h.waited_le
  have hlimit := waitBound_add_gap_le cfg gap r
  have hroom : r.waited p + (dur x.now p).toNat < 2 ^ 64 := by omega
  simp only [Regs.waited, ht, if_true] at hroom ⊢
  rw [dur_toNat_add x.now p r.tMark, Nat.mod_eq_of_lt hroom]

/-- A sample that does not end the cycle leaves it on schedule. -/
theorem OnSchedule.next {e : Effect} (h : OnSchedule cfg gap start p r) (hg : (dur x.now p).toNat ≤ gap)
    (hb : cfg.longestCycle gap < 2 ^ 64) (hcount : r.bitCount.toNat < 40) (he : BusyEffect cfg x r e)
    (hbusy : e.regs.busy = true) : OnSchedule cfg gap start x.now e.regs := by
  have htotal := h.total_le
  have hstart : (dur x.now start).toNat ≤ (dur p start).toNat + (dur x.now p).toNat := by
    rw [dur_toNat_add x.now p start]
    exact Nat.mod_le _ _
  obtain hend | ⟨hsame, htimed, hd⟩ | hadv := he.ends_waits_or_advances gap hcount
  · rw [hend] at hbusy
    cases hbusy
  · have hadd := h.waited_add hg hb htimed
    rw [hsame]
    exact ⟨by simpa [Regs.waited, Regs.waitBound, htimed] using BitVec.le_def.mp hd, by omega⟩
  · have hzero : e.regs.waited x.now = 0 := by
      cases ht : e.regs.timed with
      | true => simp [Regs.waited, ht, hadv.mark_eq ht, dur]
      | false => simp [Regs.waited, ht]
    have hwaited := h.waited_le
    have hafter := hadv.timeLeft_le
    have hleft : r.timeLeft cfg gap = r.waitBound cfg + gap + r.timeAfter cfg gap := rfl
    exact ⟨by omega, by omega⟩

end

/-- The block is busy now and after each of `n` steps. -/
def busyFor (n : Nat) (w : State) : Prop :=
  ∀ k ≤ n, ∃ v, runSteps k w = .next v ∧ v.regs.busy = true

theorem busyFor.busy {n : Nat} {w : State} (h : busyFor n w) : w.regs.busy = true := by
  obtain ⟨v, hv, hb⟩ := h 0 (Nat.zero_le n)
  cases hv
  exact hb

theorem busyFor.next {n : Nat} {w v : State} (h : busyFor (n + 1) w) (hv : step w = .next v) : busyFor n v := by
  intro k hk
  rw [← runSteps_succ k hv]
  exact h (k + 1) (by omega)

/-- A step from one busy state to another keeps the cycle on schedule: it is no reset. -/
theorem OnSchedule.step {gap : Nat} {start p : Time} {w v : State} (h : OnSchedule w.cfg gap start p w.regs)
    (hi : w.regs.inv) (hb : w.cfg.longestCycle gap < 2 ^ 64) (hg : (dur w.sample.now p).toNat ≤ gap)
    (hv : step w = .next v) (hw : w.regs.busy = true) (hbusy : v.regs.busy = true) :
    OnSchedule w.cfg gap start w.sample.now v.regs := by
  obtain ⟨-, rfl⟩ | ⟨-, -, rfl⟩ := step_cases hv
  · cases hbusy
  · obtain ⟨hphase, -⟩ := (inv_iff _).mp hi
    obtain ⟨-, hcount⟩ := cycleOpen_of_busy hphase hw
    exact h.next hg hb hcount (busyEffect_of_busy _ _ _ _ hw) hbusy

/-- As long as a cycle on schedule runs on, every sample is within the bound. -/
theorem dur_le_of_onSchedule {gap n : Nat} {start p : Time} {w : State} {x : Input}
    (h : OnSchedule w.cfg gap start p w.regs) (hi : w.regs.inv) (hb : w.cfg.longestCycle gap < 2 ^ 64)
    (hgaps : gapsAtMost gap p w.inputs) (hbusy : busyFor n w) (hx : w.inputs[n]? = some x) :
    (dur x.now start).toNat ≤ w.cfg.longestCycle gap := by
  induction n generalizing w p with
  | zero =>
    obtain ⟨ys, hys⟩ : ∃ ys, w.inputs = x :: ys := by
      cases hw : w.inputs with
      | nil => simp [hw] at hx
      | cons y ys => exact ⟨ys, by simpa [hw] using hx⟩
    rw [hys] at hgaps
    obtain ⟨hg, -⟩ := hgaps
    exact h.dur_le hg
  | succ n ih =>
    cases hys : w.inputs with
    | nil => simp [hys] at hx
    | cons y ys =>
      rw [hys] at hgaps
      obtain ⟨hg, hgaps⟩ := hgaps
      have hs : w.sample = y := State.sample_cons w y ys hys
      obtain ⟨v, hv⟩ := step_goes_on hi
      obtain ⟨hcfg, hinputs, -⟩ := stepTakesOneSampleInstant _ _ hv
      have hrest : busyFor n v := hbusy.next hv
      have hnext := h.step hi hb (by rw [hs]; exact hg) hv hbusy.busy hrest.busy
      rw [hs] at hnext
      rw [hys, List.tail_cons] at hinputs
      rw [← hcfg] at hnext hb ⊢
      exact ih hnext (step_keeps_inv hi hv) hb (by rw [hinputs]; exact hgaps) hrest
        (by rw [hinputs]; simpa [hys] using hx)

/-! ## The obligations -/

/-- Settles O26: the three share one meaning, `accept` is the answer `ACCEPTED`, and the start of a cycle is R214's or
R215's by `io_err`. -/
theorem restingMicroOpsWaitForAcceptedPoll : Obligations.RestingMicroOpsWaitForAcceptedPoll := by
  intro s m hm
  have hrsp (ha : (commandAnswer s).accept = true) : (commandAnswer s).rsp = .accepted :=
    (commandAnswer_accept_iff s).mp ha
  refine ⟨fun hp => ?_, fun hp => ?_, fun hp => ?_, fun ha => ?_, fun ha hi => ?_, fun ha hi => ?_⟩
  · rw [decodeStateCode_stateCode, hp]; rfl
  · rw [decodeStateCode_stateCode, hp]; rfl
  · rw [decodeStateCode_stateCode, hp]; rfl
  · rw [exec_resting hm, ha]; rfl
  · rw [exec_resting hm, hrsp ha, if_pos ha, startCycle_of_ioErr_false hi]; rfl
  · rw [exec_resting hm, hrsp ha, if_pos ha, startCycle_of_ioErr_true hi]; rfl

/-- Settles O34: the run is followed through the four sub-steps, the two holds being passed by an induction each. -/
theorem startPulseSeenFromTheWire : Obligations.StartPulseSeenFromTheWire := by
  intro s t xs c e h ha hi hc hce hx hlow hlowEnd hrel hrelEnd
  have ht := step_accepted h ha
  rw [startCycle_of_ioErr_false hi] at ht
  have hcfg : t.cfg = s.cfg := by rw [ht, commit_cfg]
  have hacts : t.actions = [.configure .output, .write true] := by rw [ht, commit_actions]
  rw [← hcfg] at hlow hlowEnd hrel hrelEnd
  have hlist {j : Nat} (hj : j ≤ e + 2) : ∀ k < j, t.inputs[k]? = some (xs k) ∧ (xs k).rst = false :=
    fun k hk => (hx k (by omega)).imp_right And.left
  have h0 : ReachesSubStep t 0 .reqHigh t.regs.tMark [] t :=
    ⟨runSteps_zero t, rfl, rfl, rfl, by rw [ht]; exact ⟨rfl, rfl, rfl, rfl, rfl⟩⟩
  obtain ⟨hx0, hr0, hi0⟩ := hx 0 (by omega)
  obtain ⟨w1, h1⟩ := h0.drivesLow hx0 hr0 hi0
  obtain ⟨wc, hwc⟩ := h1.hold hc (hlist (by omega)) fun k hk hk' a r hq =>
    (hq.effect_reqLow a _ _).trans (seqReqLow_of_early (by rw [hq.mark_eq]; exact hlow k hk hk'))
  obtain ⟨hxc, hrc, hic⟩ := hx c (by omega)
  obtain ⟨w2, h2⟩ := hwc.drivesHigh hxc hrc hic hlowEnd
  obtain ⟨we, hwe⟩ := h2.hold hce (hlist (by omega)) fun k hk hk' a r hq =>
    (hq.effect_reqRelease a _ _).trans (seqReqRelease_of_early (by rw [hq.mark_eq]; exact hrel k hk hk'))
  obtain ⟨hxe, hre, hie⟩ := hx e (by omega)
  obtain ⟨w3, h3⟩ := hwe.switchesToInput hxe hre hie hrelEnd
  obtain ⟨hxr, hrr, -⟩ := hx (e + 1) le_rfl
  have hread := h3.history_succ hxr hrr (h3.regs.effect_reqTurn _ _ _)
  simp only [history_succ _ h, hacts, h0.history_eq, h1.history_eq, hwc.history_eq, h2.history_eq, hwe.history_eq,
    h3.history_eq, hread, seqTurnArm, List.append_nil, List.nil_append, List.cons_append, and_self]

/-- Settles O48: a running cycle moves along the arrows, and a resting phase is left only by the start of a cycle. -/
theorem phaseChangesOnlyAlongArrows : Obligations.PhaseChangesOnlyAlongArrows := by
  intro s t hr h hne
  obtain ⟨hr', -⟩ | ⟨-, -, rfl⟩ := step_cases h
  · rw [hr] at hr'
    cases hr'
  · rw [commit_regs] at hne
    rw [commit_regs, commit_rsp]
    cases hb : s.regs.busy with
    | true => exact ⟨(busyEffect_of_busy _ s.cfg s.sample _ hb).phaseArrow.resolve_left hne, nofun⟩
    | false =>
      rw [restEffect_of_not_busy _ _ _ _ hb] at hne ⊢
      cases ha : (commandAnswer s).accept with
      | true =>
        rw [ha, if_pos rfl] at hne
        exact ⟨(startCycle_phaseArrow s.sample hb).resolve_left hne, fun _ => (commandAnswer_accept_iff s).mp ha⟩
      | false => exact absurd (by rw [ha]; rfl) hne

/-- Settles O58: the accepted `POLL` puts the cycle on schedule, unless the port refuses it and the block is not
busy. -/
theorem cycleEndsWithinItsBound : Obligations.CycleEndsWithinItsBound := by
  intro s t gap n x h ha hb hgaps hbusy hx
  have ht := step_accepted h ha
  have hcfg : t.cfg = s.cfg := by rw [ht, commit_cfg]
  have hi : s.sample.ioErr = false := by
    have hwb : t.regs.busy = true := busyFor.busy hbusy
    cases hi : s.sample.ioErr with
    | false => rfl
    | true =>
      rw [ht, commit_regs, startCycle_of_ioErr_true hi] at hwb
      cases hwb
  have hregs : t.regs = cycleStarted s.sample.now s.regs := by rw [ht, startCycle_of_ioErr_false hi, commit_regs]
  have hinv : t.regs.inv := by rw [ht, commit_regs]; exact startCycle_inv _ _
  have hstart : OnSchedule t.cfg gap s.sample.now s.sample.now t.regs := by
    rw [hregs]
    exact ⟨le_rfl, by rw [timeLeft_of_cycleStarted]; simp [dur]⟩
  rw [← hcfg] at hb ⊢
  exact dur_le_of_onSchedule hstart hinv hb hgaps hbusy hx

/-- Settles O27: the write of 0, taken or refused by the port. -/
theorem reqHighBeginsLowPulse : Obligations.ReqHighBeginsLowPulse := by
  intro s
  rw [exec_seqReqHigh]
  refine ⟨fun hp hq => ?_, fun hi => ?_, fun hi => ?_⟩
  · rw [decodeStateCode_stateCode, hp, hq]; rfl
  · rw [seqReqHigh_of_ioErr_false hi]; rfl
  · rw [seqReqHigh_of_ioErr_true hi]; rfl

/-- Settles O28: before `T_START_LOW` the hold goes on, from it on the port is asked to write 1. -/
theorem reqLowHoldsThenReleases : Obligations.ReqLowHoldsThenReleases := by
  intro s
  rw [exec_seqReqLow]
  refine ⟨fun hp hq => ?_, fun hd => ?_, fun hd hi => ?_, fun hd hi => ?_⟩
  · rw [decodeStateCode_stateCode, hp, hq]; rfl
  · rw [seqReqLow_of_early hd]; rfl
  · rw [seqReqLow_of_over hd, hi]; rfl
  · rw [seqReqLow_of_over hd, hi]; rfl

/-- Settles O29: before `T_RELEASE` the hold goes on, from it on the port is asked to switch to Input. -/
theorem reqReleaseHoldsThenListens : Obligations.ReqReleaseHoldsThenListens := by
  intro s
  rw [exec_seqReqRelease]
  refine ⟨fun hp hq => ?_, fun hd => ?_, fun hd hi => ?_, fun hd hi => ?_⟩
  · rw [decodeStateCode_stateCode, hp, hq]; rfl
  · rw [seqReqRelease_of_early hd]; rfl
  · rw [seqReqRelease_of_over hd, hi]; rfl
  · rw [seqReqRelease_of_over hd, hi]; rfl

/-- Settles O30: the entry sample is `arm`, with no look at `io_err`. -/
theorem turnArmTakesTheEntrySample : Obligations.TurnArmTakesTheEntrySample := by
  refine fun s => ⟨fun hp hq ha => ?_, rfl⟩
  rw [decodeStateCode_stateCode, hp, hq, ha]
  rfl

/-- Settles O31: the four cases of a response wait, an edge being accepted by `turn_ok`. -/
theorem turnWaitTimesTheFallingEdge : Obligations.TurnWaitTimesTheFallingEdge := by
  intro s
  rw [exec_seqTurnWait]
  refine ⟨fun hp hq ha => ?_, fun he hd => ?_, fun he hd => ?_, fun he hd => ?_, fun he hd => ?_⟩
  · rw [decodeStateCode_stateCode, hp, hq, ha]; rfl
  · rw [responseWait_of_pending he hd]; rfl
  · rw [responseWait_of_late he hd]; rfl
  · rw [responseWait_of_accepted he (by rw [turnOk_eq_decide, decide_eq_true hd])]
    obtain ⟨hfall, -⟩ := hd
    rw [rearm, hfall]; rfl
  · rw [responseWait_of_rejected he (by rw [turnOk_eq_decide, decide_eq_false hd])]; rfl

/-- Settles O32: the state code, and the wait for a pulse in the window. -/
theorem ackLowTimesTheLowPulse : Obligations.AckLowTimesTheLowPulse :=
  fun s => ⟨fun hp => by rw [decodeStateCode_stateCode, hp]; rfl, exec_of_ackWait (exec_seqAckLow s)⟩

/-- Settles O33: the state code, and the same wait with `ReadingBits` after it. -/
theorem ackHighTimesTheHighPulse : Obligations.AckHighTimesTheHighPulse :=
  fun s => ⟨fun hp => by rw [decodeStateCode_stateCode, hp]; rfl, exec_of_ackWait (exec_seqAckHigh s)⟩

end Sys2Proof.Machine

/-! # Proofs for the statements of 43_bit_decoder.md: the two halves of a bit, the classifier, the checksum, the timeout -/

namespace Sys2Proof.Machine

/-! ## The wait of either half (R191, R194, R198) -/

/-- What `SEQ.BIT_LOW` and `SEQ.BIT_HIGH` have in common: a wait for an edge whose timeout follows the policy, with the
effect `onEdge` of the edge that ends it. -/
def bitWait (cfg : Config) (onEdge : EdgeMeasurement → Effect) (x : Input) (r : Regs) : Effect :=
  match edgeStep r x cfg.tEdgeTimeout with
  | .pending => ⟨r, [.read]⟩
  | .timeout => bitTimeout cfg [.read] r
  | .edge m => onEdge m

/-- The edge that ends a low half, whatever its measurement (R191). -/
def lowHalfEdge (x : Input) (r : Regs) (_ : EdgeMeasurement) : Effect :=
  ⟨{ rearm x r with half := true }, [.read]⟩

/-- The edge that ends a high half takes a bit, and the fortieth finishes the frame (R194, R195). -/
def highHalfEdge (cfg : Config) (x : Input) (r : Regs) (m : EdgeMeasurement) : Effect :=
  let r' := takeBit cfg x m.duration r
  if r.bitCount + 1 == BitVec.ofNat 6 nBits then ⟨finish r'.frame r', [.read]⟩ else ⟨r', [.read]⟩

theorem exec_seqBitLow (s : State) :
    exec .seqBitLow s = .next (commit s (commandAnswer s).rsp
      (bitWait s.cfg (lowHalfEdge s.sample s.regs) s.sample s.regs)) := rfl

theorem exec_seqBitHigh (s : State) :
    exec .seqBitHigh s = .next (commit s (commandAnswer s).rsp
      (bitWait s.cfg (highHalfEdge s.cfg s.sample s.regs) s.sample s.regs)) := rfl

section
variable {cfg : Config} {onEdge : EdgeMeasurement → Effect} {x : Input} {r : Regs}

theorem bitWait_of_pending (he : x.pinIn = r.refLevel) (hd : dur x.now r.tMark ≤ cfg.tEdgeTimeout) :
    bitWait cfg onEdge x r = ⟨r, [.read]⟩ := by
  rw [bitWait, edgeStep_eq_pending_iff.mpr ⟨he, hd⟩]

theorem bitWait_of_late (he : x.pinIn = r.refLevel) (hd : cfg.tEdgeTimeout < dur x.now r.tMark) :
    bitWait cfg onEdge x r = bitTimeout cfg [.read] r := by
  rw [bitWait, edgeStep_of_late he hd]

theorem bitWait_of_edge (he : x.pinIn ≠ r.refLevel) :
    bitWait cfg onEdge x r = onEdge ⟨x.pinIn, dur x.now r.tMark⟩ := by
  rw [bitWait, edgeStep_of_ne _ he]

end

/-! ## The edge of a high half (R194, R195, R197) -/

/-- A bit before the fortieth is only shifted in. -/
theorem highHalfEdge_of_ne {r : Regs} (cfg : Config) (x : Input) (m : EdgeMeasurement) (hn : r.bitCount ≠ 39) :
    highHalfEdge cfg x r m = ⟨takeBit cfg x m.duration r, [.read]⟩ := by
  rw [highHalfEdge, bitCount_succ_eq]
  exact if_neg (by simpa using hn)

/-- The fortieth bit is shifted in and the frame it completes is judged in the same step. -/
theorem highHalfEdge_of_eq {r : Regs} (cfg : Config) (x : Input) (m : EdgeMeasurement) (hn : r.bitCount = 39) :
    highHalfEdge cfg x r m =
      ⟨finish (shiftIn r.frame (bitValue cfg m.duration)) (takeBit cfg x m.duration r), [.read]⟩ := by
  rw [highHalfEdge, bitCount_succ_eq]
  exact if_pos (by simpa using hn)

/-! ## The policy of a bit timeout (R198) -/

/-- Either half is a wait with the timeout of `bit_timeout`. -/
theorem exec_bit {m : Instr} (hm : m = .seqBitLow ∨ m = .seqBitHigh) (s : State) :
    ∃ onEdge, exec m s = .next (commit s (commandAnswer s).rsp (bitWait s.cfg onEdge s.sample s.regs)) := by
  obtain rfl | rfl := hm
  · exact ⟨_, exec_seqBitLow s⟩
  · exact ⟨_, exec_seqBitHigh s⟩

theorem bitTimeout_of_decoderInvalid {cfg : Config} (hpol : cfg.bitTimeoutPolicy = .decoderInvalid)
    (as : List Action) (r : Regs) :
    bitTimeout cfg as r = ⟨{ r with phase := .done, status := .checksumMismatch, armed := false }, as⟩ := by
  rw [bitTimeout, hpol]

theorem bitTimeout_of_sequencerAbort {cfg : Config} (hpol : cfg.bitTimeoutPolicy = .sequencerAbort)
    (as : List Action) (r : Regs) : bitTimeout cfg as r = fail .edgeTimeout as r := by
  rw [bitTimeout, hpol]

/-! ## The classifier (R193) -/

theorem bitValue_eq_true_iff (cfg : Config) (d : Time) : bitValue cfg d = true ↔ cfg.tBitThreshold < d :=
  decide_eq_true_iff

/-! ## The obligations -/

/-- Settles O38: the frame with the bit shifted in is the number the statement names; it is judged where the count was
39. -/
theorem bitHighShiftsInOneBit : Obligations.BitHighShiftsInOneBit := by
  intro s
  rw [exec_seqBitHigh]
  refine ⟨fun hp hh => ?_, fun he hd => ?_, fun he => ?_⟩
  · rw [decodeStateCode_stateCode, hp, hh]; rfl
  · rw [bitWait_of_pending he hd]; rfl
  · rw [bitWait_of_edge he]
    refine ⟨_, (listingFrame_eq s.cfg (dur s.sample.now s.regs.tMark) s.regs.frame).symm, fun hn => ?_, fun hn => ?_⟩
    · rw [highHalfEdge_of_ne _ _ _ hn]; rfl
    · have hcount : (40 : BitVec 6) = s.regs.bitCount + 1 := by rw [hn]; rfl
      rw [highHalfEdge_of_eq _ _ _ hn, hcount]; rfl

/-- Settles O41: the sum of the byte fields, each read off the frame as a number. -/
theorem checksumIsTheByteSumModulo256 : Obligations.ChecksumIsTheByteSumModulo256 :=
  checksumOk_iff_byteSum

/-- Settles O37: the wait goes on within the deadline, and any edge ends it. -/
theorem bitLowWaitsOutTheLowHalf : Obligations.BitLowWaitsOutTheLowHalf := by
  intro s
  rw [exec_seqBitLow]
  refine ⟨fun hp hh => ?_, fun he hd => ?_, fun he => ?_⟩
  · rw [decodeStateCode_stateCode, hp, hh]; rfl
  · rw [bitWait_of_pending he hd]; rfl
  · rw [bitWait_of_edge he]; rfl

/-- Settles O39: in either half a timeout is `bit_timeout`, which looks at the policy and not at the frame. -/
theorem bitTimeoutFollowsPolicy : Obligations.BitTimeoutFollowsPolicy := by
  intro s m hm he hd
  obtain ⟨onEdge, hexec⟩ := exec_bit hm s
  rw [hexec, bitWait_of_late he hd]
  refine ⟨fun hpol => ?_, fun hpol => ?_⟩
  · rw [bitTimeout_of_decoderInvalid hpol]; rfl
  · rw [bitTimeout_of_sequencerAbort hpol]; rfl

/-- Settles O40: a bit is the strict comparison with the threshold, evaluated at the four durations of R193. -/
theorem bitValueIsTheThresholdTest : Obligations.BitValueIsTheThresholdTest := by
  refine ⟨bitValue_eq_true_iff, fun cfg hthr => ?_⟩
  simp only [bitValue, hthr]
  decide

end Sys2Proof.Machine

/-! # Proofs for the statements of 44_poll_scheduler.md: the two legal commands, the gate-pass registers, the spacing of
accepted commands -/

namespace Sys2Proof.Machine

/-! ## `POLL` at an instant (R213) -/

/-- `POLL` runs the selected micro-operation with its answer. -/
theorem exec_poll (s : State) :
    exec .poll s =
      .next (commit s (answerPoll s).rsp (effectByFields (answerPoll s).accept s.cfg s.sample s.regs)) :=
  runSelected_eq _ s

/-- `POLL` while a cycle runs: the micro-operation without acceptance (R217). -/
theorem exec_poll_of_busy {s : State} (hb : s.regs.busy = true) :
    exec .poll s = .next (commit s .busy (effectByFields false s.cfg s.sample s.regs)) := by
  rw [exec_poll, answerPoll_of_busy hb]

/-- `POLL` at rest with the gate closed: no effect (R218). -/
theorem exec_poll_of_gate_closed {s : State} (hb : s.regs.busy = false)
    (hg : gate s.cfg s.sample.now s.regs = false) : exec .poll s = .next (commit s .notReady ⟨s.regs, []⟩) := by
  rw [exec_poll, answerPoll_of_not_busy hb, hg, restEffect_of_not_busy _ _ _ _ hb]
  rfl

/-- `POLL` at rest with the gate open: the start of a cycle, which the port takes or refuses (R214, R215). -/
theorem exec_poll_of_gate_open {s : State} (hb : s.regs.busy = false)
    (hg : gate s.cfg s.sample.now s.regs = true) :
    exec .poll s = .next (commit s .accepted (startCycle s.sample s.regs)) := by
  rw [exec_poll, answerPoll_of_not_busy hb, hg, restEffect_of_not_busy _ _ _ _ hb]
  rfl

/-! ## The gate-pass registers (R212) -/

/-- No row of R40's table for a micro-operation names a gate-pass register. -/
theorem gatePass_notMem_busyWrites (m : Instr) : .lastTrigger ∉ busyWrites m ∧ .haveLast ∉ busyWrites m := by
  cases m <;> decide

/-- Without acceptance no micro-operation moves a gate-pass register. -/
theorem effectByFields_keeps_gatePass (cfg : Config) (x : Input) (r : Regs) :
    (effectByFields false cfg x r).regs.lastTrigger = r.lastTrigger ∧
      (effectByFields false cfg x r).regs.haveLast = r.haveLast := by
  have hkept := (changedRegisters_subset_iff _ _ _).mp (effectByFields_changes cfg x (r := r) fun _ => rfl)
  obtain ⟨htrigger, hlast⟩ := gatePass_notMem_busyWrites (selectedOp r.phase r.reqStep r.half r.armed)
  exact ⟨(beq_iff_eq.mp ((hkept .lastTrigger).resolve_left htrigger)).symm,
    (beq_iff_eq.mp ((hkept .haveLast).resolve_left hlast)).symm⟩

/-- The start of a cycle, taken or refused by the port, records the gate-pass. -/
theorem startCycle_gatePass (x : Input) (r : Regs) :
    (startCycle x r).regs.lastTrigger = x.now ∧ (startCycle x r).regs.haveLast = true := by
  obtain ⟨-, h⟩ | ⟨-, h⟩ := startCycle_cases x r <;> rw [h] <;> exact ⟨rfl, rfl⟩

/-- A step that accepts a `POLL` records the time of its sample. -/
theorem step_accepted_gatePass {s t : State} (h : step s = .next t) (ha : t.rsp = .accepted) :
    t.regs.lastTrigger = s.sample.now ∧ t.regs.haveLast = true := by
  rw [step_accepted h ha]
  exact startCycle_gatePass s.sample s.regs

/-- A step that neither resets nor accepts a `POLL` keeps the gate-pass. -/
theorem step_keeps_gatePass {s t : State} (hr : s.sample.rst = false) (h : step s = .next t) (ha : t.rsp ≠ .accepted) :
    t.regs.lastTrigger = s.regs.lastTrigger ∧ t.regs.haveLast = s.regs.haveLast := by
  obtain ⟨hr', -⟩ | ⟨-, -, rfl⟩ := step_cases h
  · rw [hr] at hr'
    cases hr'
  · have hacc : (commandAnswer s).accept = false :=
      Bool.eq_false_iff.mpr (mt (commandAnswer_accept_iff s).mp ha)
    rw [commit_regs, hacc]
    exact effectByFields_keeps_gatePass s.cfg s.sample s.regs

/-! ## The spacing of accepted commands (R219) -/

/-- Only a `POLL` that finds the gate open is accepted (R123). -/
theorem gate_of_accept {s : State} (ha : (commandAnswer s).accept = true) :
    gate s.cfg s.sample.now s.regs = true := by
  have hb : s.regs.busy = false :=
    Bool.eq_false_iff.mpr fun hb => by simp [commandAnswer_accept_of_busy s hb] at ha
  have hpoll : decodeCommand s.sample.commandWord = .ok .poll := by
    by_contra hn
    obtain ⟨rsp, hans⟩ := commandAnswer_of_not_poll hn
    rw [hans s rfl] at ha
    cases ha
  have hans : commandAnswer s = answerPoll s := by rw [commandAnswer, hpoll]
  rw [hans, answerPoll_of_not_busy hb] at ha
  cases hg : gate s.cfg s.sample.now s.regs with
  | true => rfl
  | false => rw [hg] at ha; cases ha

/-- A step that accepts a `POLL` found the gate open. -/
theorem gate_of_step_accepted {s t : State} (h : step s = .next t) (ha : t.rsp = .accepted) :
    gate s.cfg s.sample.now s.regs = true := by
  obtain ⟨-, rfl⟩ | ⟨-, -, rfl⟩ := step_cases h
  · cases ha
  · exact gate_of_accept ((commandAnswer_accept_iff s).mpr ha)

/-- None of the next `n` steps resets or accepts a `POLL`. -/
def noAcceptFor (n : Nat) (t : State) : Prop :=
  ∀ k < n, ∃ w w', runSteps k t = .next w ∧ w.sample.rst = false ∧ step w = .next w' ∧ w'.rsp ≠ .accepted

/-- Over steps that neither reset nor accept a `POLL`, the configuration and the gate-pass stay. -/
theorem noAcceptFor.keeps_gatePass {n : Nat} {t u : State} (h : noAcceptFor n t) (hu : runSteps n t = .next u) :
    u.cfg = t.cfg ∧ u.regs.lastTrigger = t.regs.lastTrigger ∧ u.regs.haveLast = t.regs.haveLast := by
  induction n generalizing u with
  | zero =>
    cases hu
    exact ⟨rfl, rfl, rfl⟩
  | succ n ih =>
    obtain ⟨w, w', hw, hr, hstep, ha⟩ := h n (Nat.lt_succ_self n)
    obtain ⟨hcfg, htrigger, hlast⟩ := ih (fun k hk => h k (Nat.lt_succ_of_lt hk)) hw
    rw [runSteps_snoc n hw] at hu
    cases hstep.symm.trans hu
    obtain ⟨hcfg', -⟩ := stepTakesOneSampleInstant _ _ hstep
    obtain ⟨htrigger', hlast'⟩ := step_keeps_gatePass hr hstep ha
    exact ⟨hcfg'.trans hcfg, htrigger'.trans htrigger, hlast'.trans hlast⟩

/-! ## The obligations -/

/-- Settles O25: the first command records its time, the steps between keep it, and the second finds the gate open. -/
theorem acceptedPollsAreCooldownApart : Obligations.AcceptedPollsAreCooldownApart := by
  intro s t u v n hs hta hbetween hu hv hva
  obtain ⟨hcfg, -⟩ := stepTakesOneSampleInstant _ _ hs
  obtain ⟨htrigger, hlast⟩ := step_accepted_gatePass hs hta
  obtain ⟨hcfg', htrigger', hlast'⟩ := noAcceptFor.keeps_gatePass hbetween hu
  have hgate := (gate_eq_true_iff _ _ _).mp (gate_of_step_accepted hv hva)
  rw [hcfg', hcfg, hlast', hlast, htrigger', htrigger] at hgate
  exact hgate.resolve_left Bool.true_eq_false.mp

/-- Settles O24: an accepted step is the start of a cycle, and any other keeps both registers. -/
theorem lastTriggerMovesExactlyOnAcceptance : Obligations.LastTriggerMovesExactlyOnAcceptance :=
  fun _ _ hr h => ⟨step_accepted_gatePass h, step_keeps_gatePass hr h⟩

/-- Settles O18: `NOP` runs the micro-operation without acceptance and with the answer of no command. -/
theorem nopActsAsNoCommand : Obligations.NopActsAsNoCommand :=
  fun s _ hm => ⟨_, runSelected_eq answerNop s, rfl, exec_selected_withoutCommand hm⟩

/-- Settles O20: `POLL` runs the micro-operation without acceptance, which moves no gate-pass register. -/
theorem pollWhileBusyAnswersBusy : Obligations.PollWhileBusyAnswersBusy :=
  fun s _ hb hm =>
    ⟨_, exec_selected_withoutCommand hm, exec_poll_of_busy hb, effectByFields_keeps_gatePass s.cfg s.sample s.regs⟩

/-- Settles O21: at rest the micro-operation does nothing without acceptance. -/
theorem pollNotReadyChangesNothing : Obligations.PollNotReadyChangesNothing :=
  fun _ hb hg => exec_poll_of_gate_closed hb hg

/-- Settles O22: the start of a cycle that the port takes. -/
theorem acceptedPollStartsCycle : Obligations.AcceptedPollStartsCycle := by
  intro s hb hg hi
  rw [exec_poll_of_gate_open hb hg, startCycle_of_ioErr_false hi]
  rfl

/-- Settles O23: the start of a cycle that the port refuses. -/
theorem acceptedPollWithIoErrorFails : Obligations.AcceptedPollWithIoErrorFails := by
  intro s hb hg hi
  rw [exec_poll_of_gate_open hb hg, startCycle_of_ioErr_true hi]
  rfl

/-- Settles O16: the gate is the comparison of the elapsed time with the cool-down, evaluated on both sides of it. -/
theorem gatePassesFromOneSecondOn : Obligations.GatePassesFromOneSecondOn := by
  refine ⟨gate_eq_true_iff, fun cfg r hcool hlast htrigger => ?_⟩
  simp only [gate, hcool, hlast, htrigger]
  decide

end Sys2Proof.Machine

/-! # Proofs for the statements of 60_exceptions.md: what ends a running cycle, what a failure writes, where `io_err`
counts -/

namespace Sys2Proof.Machine

/-! ## The causes (R231 to R234) -/

/-- A step of the request that asks the port for something other than the restore (R67): the write of 0, and the end of
either hold. -/
def issuesRequest (cfg : Config) (x : Input) (r : Regs) : Prop :=
  r.phase = .requesting ∧
    (r.reqStep = .reqHigh ∨ r.reqStep = .reqLow ∧ cfg.tStartLow ≤ dur x.now r.tMark ∨
      r.reqStep = .reqRelease ∧ cfg.tRelease ≤ dur x.now r.tMark)

/-- The columns of R235's table for a running cycle: at which samples it raises which failure. -/
def raises (cfg : Config) (x : Input) (r : Regs) : Failure → Prop
  | .edgeTimeout =>
    (r.phase = .requesting ∧ r.reqStep = .reqTurn ∧ r.armed = true ∧ waitTimedOut r x cfg.tTurnaround) ∨
      ((r.phase = .awaitingResponseLow ∨ r.phase = .awaitingResponseHigh ∨
          r.phase = .readingBits ∧ cfg.bitTimeoutPolicy = .sequencerAbort) ∧ waitTimedOut r x cfg.tEdgeTimeout)
  | .timingViolation =>
    (r.phase = .requesting ∧ r.reqStep = .reqTurn ∧ r.armed = true ∧ x.pinIn ≠ r.refLevel ∧
        (x.pinIn = true ∨ cfg.tTurnaround < dur x.now r.tMark)) ∨
      ((r.phase = .awaitingResponseLow ∨ r.phase = .awaitingResponseHigh) ∧ x.pinIn ≠ r.refLevel ∧
        (dur x.now r.tMark < cfg.tAckMin ∨ cfg.tAckMax < dur x.now r.tMark))
  | .ioError => issuesRequest cfg x r ∧ x.ioErr = true

/-- R233: the data of a cycle is discarded at an expired bit wait under `DecoderInvalid`, or with a fortieth bit that
completes a frame `f` whose checksum is wrong. -/
def discardsFrame (cfg : Config) (x : Input) (r : Regs) (f : Frame) : Prop :=
  r.phase = .readingBits ∧
    ((x.pinIn = r.refLevel ∧ cfg.tEdgeTimeout < dur x.now r.tMark ∧ cfg.bitTimeoutPolicy = .decoderInvalid) ∨
      (x.pinIn ≠ r.refLevel ∧ r.half = true ∧ r.bitCount = 39 ∧ checksumOk f = false))

/-- No two failures leave one status (R98). -/
theorem Failure.status_injective {c c' : Failure} (h : c.status = c'.status) : c = c' := by
  revert h
  cases c <;> cases c' <;> decide

/-- The verdict on a full frame is `ChecksumMismatch` exactly where the checksum is wrong (R197). -/
theorem finish_status_eq_mismatch_iff (f : Frame) (r : Regs) :
    (finish f r).status = .checksumMismatch ↔ checksumOk f = false := by
  rw [finish_status]
  cases checksumOk f <;> simp

/-! ## How an instant of a running cycle can end -/

/-- What an instant makes of a running cycle: it goes on, fails for a cause of R235, ends in `Done` at an expired bit wait
(R198), or ends in `Done` with the fortieth bit (R197). -/
inductive CycleOutcome (cfg : Config) (x : Input) (r : Regs) : Effect → Prop
  | goesOn {e : Effect} (hb : e.regs.busy = true) : CycleOutcome cfg x r e
  | fails (code : Failure) (issued : List Action) (hc : raises cfg x r code) :
      CycleOutcome cfg x r (fail code issued r)
  | abandonsFrame (hp : r.phase = .readingBits) (hw : waitTimedOut r x cfg.tEdgeTimeout)
      (hpol : cfg.bitTimeoutPolicy = .decoderInvalid) :
      CycleOutcome cfg x r ⟨{ r with phase := .done, status := .checksumMismatch, armed := false }, [.read]⟩
  | completesFrame (hp : r.phase = .readingBits) (he : x.pinIn ≠ r.refLevel) (hh : r.half = true)
      (hn : r.bitCount = 39) :
      CycleOutcome cfg x r
        ⟨finish (shiftIn r.frame (bitValue cfg (dur x.now r.tMark))) (takeBit cfg x (dur x.now r.tMark) r), [.read]⟩

/-- The rows of R126's table, sorted by what they make of the cycle. -/
theorem BusyEffect.cycleOutcome {cfg : Config} {x : Input} {r : Regs} {e : Effect} (h : BusyEffect cfg x r e)
    (hb : r.busy = true) : CycleOutcome cfg x r e := by
  cases h with
  | drivesLow | holdsLow | drivesHigh | holdsHigh | switchesToInput | arms | turnPending | ackPending | bitPending
  | lowHalfEnds | bitTaken => exact .goesOn hb
  | turnAccepted | ackLowAccepted | ackHighAccepted => exact .goesOn rfl
  | portRefusesLow hp hq hi => exact .fails .ioError _ ⟨⟨hp, .inl hq⟩, hi⟩
  | portRefusesHigh hp hq hd hi => exact .fails .ioError _ ⟨⟨hp, .inr (.inl ⟨hq, hd⟩)⟩, hi⟩
  | portRefusesInput hp hq hd hi => exact .fails .ioError _ ⟨⟨hp, .inr (.inr ⟨hq, hd⟩)⟩, hi⟩
  | turnTimeout hp hq ha hw => exact .fails .edgeTimeout _ (.inl ⟨hp, hq, ha, hw⟩)
  | turnRejected hp hq ha he hd => exact .fails .timingViolation _ (.inl ⟨hp, hq, ha, he, hd⟩)
  | ackTimeout hp hw => exact .fails .edgeTimeout _ (.inr ⟨hp.imp_right .inl, hw⟩)
  | ackRejected hp he hd => exact .fails .timingViolation _ (.inr ⟨hp, he, hd⟩)
  | bitTimeoutAbort hp hw hpol => exact .fails .edgeTimeout _ (.inr ⟨.inr (.inr ⟨hp, hpol⟩), hw⟩)
  | bitTimeoutInvalid hp hw hpol => exact .abandonsFrame hp hw hpol
  | lastBitTaken hp hh he hn => exact .completesFrame hp he hh hn

/-- A running cycle that reaches `Failed` was failed by one of the causes. -/
theorem CycleOutcome.fail_of_failed {cfg : Config} {x : Input} {r : Regs} {e : Effect} (h : CycleOutcome cfg x r e)
    (hf : e.regs.phase = .failed) : ∃ code issued, raises cfg x r code ∧ e = fail code issued r := by
  cases h with
  | goesOn hb => rw [Regs.busy, hf] at hb; cases hb
  | fails code issued hc => exact ⟨code, issued, hc, rfl⟩
  | abandonsFrame => cases hf
  | completesFrame => cases hf

/-- A running cycle that reaches `Done` with `ChecksumMismatch` was ended by a cause of R233. -/
theorem CycleOutcome.discardsFrame_of_mismatch {cfg : Config} {x : Input} {r : Regs} {e : Effect}
    (h : CycleOutcome cfg x r e) (hdone : e.regs.phase = .done) (hbad : e.regs.status = .checksumMismatch) :
    discardsFrame cfg x r e.regs.frame := by
  cases h with
  | goesOn hb => rw [Regs.busy, hdone] at hb; cases hb
  | fails => cases hdone
  | abandonsFrame hp hw hpol =>
    obtain ⟨he, hd⟩ := hw
    exact ⟨hp, .inl ⟨he, hd, hpol⟩⟩
  | completesFrame hp he hh hn => exact ⟨hp, .inr ⟨he, hh, hn, (finish_status_eq_mismatch_iff _ _).mp hbad⟩⟩

/-- The way into `Done` restores nothing: the pin is read and stays as it is. -/
theorem CycleOutcome.keepsPin_of_done {cfg : Config} {x : Input} {r : Regs} {e : Effect} (h : CycleOutcome cfg x r e)
    (hdone : e.regs.phase = .done) : e.regs.pinDir = r.pinDir ∧ e.regs.pinOut = r.pinOut ∧ e.actions = [.read] := by
  cases h with
  | goesOn hb => rw [Regs.busy, hdone] at hb; cases hb
  | fails => cases hdone
  | abandonsFrame => exact ⟨rfl, rfl, rfl⟩
  | completesFrame => exact ⟨rfl, rfl, rfl⟩

/-! ## The micro-operation of each wait -/

section
variable (a : Bool) (cfg : Config) (x : Input) {r : Regs}

theorem effectByFields_turnWait (hp : r.phase = .requesting) (hq : r.reqStep = .reqTurn) (ha : r.armed = true) :
    effectByFields a cfg x r = responseWait cfg.tTurnaround (turnOk cfg) .awaitingResponseLow x r := by
  simp only [effectByFields, hp, hq, ha, if_true]
  rfl

theorem effectByFields_ackWait (hp : r.phase = .awaitingResponseLow ∨ r.phase = .awaitingResponseHigh) :
    ∃ dest, effectByFields a cfg x r = ackWait cfg dest x r := by
  obtain hp | hp := hp <;> simp only [effectByFields, hp]
  · exact ⟨_, rfl⟩
  · exact ⟨_, rfl⟩

theorem effectByFields_bitWait (hp : r.phase = .readingBits) :
    ∃ onEdge, effectByFields a cfg x r = bitWait cfg onEdge x r := by
  cases hh : r.half <;> simp only [effectByFields, hp, hh, if_true, if_false, Bool.false_eq_true]
  · exact ⟨lowHalfEdge x r, rfl⟩
  · exact ⟨highHalfEdge cfg x r, rfl⟩

end

/-! ## Each cause has its failure -/

section
variable (a : Bool) {cfg : Config} {x : Input} {r : Regs}

theorem effectByFields_of_edgeTimeout (h : raises cfg x r .edgeTimeout) :
    effectByFields a cfg x r = fail .edgeTimeout [.read] r := by
  have hack (hp : r.phase = .awaitingResponseLow ∨ r.phase = .awaitingResponseHigh)
      (he : x.pinIn = r.refLevel) (hd : cfg.tEdgeTimeout < dur x.now r.tMark) :
      effectByFields a cfg x r = fail .edgeTimeout [.read] r := by
    obtain ⟨dest, h⟩ := effectByFields_ackWait a cfg x hp
    rw [h, ackWait, responseWait_of_late he hd]
  obtain ⟨hp, hq, ha, he, hd⟩ | ⟨hp | hp | ⟨hp, hpol⟩, he, hd⟩ := h
  · rw [effectByFields_turnWait a cfg x hp hq ha, responseWait_of_late he hd]
  · exact hack (.inl hp) he hd
  · exact hack (.inr hp) he hd
  · obtain ⟨onEdge, h⟩ := effectByFields_bitWait a cfg x hp
    rw [h, bitWait_of_late he hd, bitTimeout_of_sequencerAbort hpol]

theorem effectByFields_of_timingViolation (h : raises cfg x r .timingViolation) :
    effectByFields a cfg x r = fail .timingViolation [.read] r := by
  obtain ⟨hp, hq, ha, he, hd⟩ | ⟨hp, he, hd⟩ := h
  · rw [effectByFields_turnWait a cfg x hp hq ha, responseWait_of_rejected he ((turnOk_eq_false _ _).mpr hd)]
  · obtain ⟨dest, h⟩ := effectByFields_ackWait a cfg x hp
    rw [h, ackWait, responseWait_of_rejected he ((inAckWindow_eq_false _ _).mpr hd)]

theorem effectByFields_of_ioError (h : raises cfg x r .ioError) :
    ∃ issued, effectByFields a cfg x r = fail .ioError issued r := by
  obtain ⟨⟨hp, hq | ⟨hq, hd⟩ | ⟨hq, hd⟩⟩, hi⟩ := h <;> simp only [effectByFields, hp, hq]
  · exact ⟨_, seqReqHigh_of_ioErr_true hi r⟩
  · exact ⟨_, (seqReqLow_of_over hd).trans (if_pos hi)⟩
  · exact ⟨_, (seqReqRelease_of_over hd).trans (if_pos hi)⟩

/-- A cause raises its failure. -/
theorem effectByFields_of_raises {code : Failure} (h : raises cfg x r code) :
    ∃ issued, effectByFields a cfg x r = fail code issued r := by
  cases code with
  | edgeTimeout => exact ⟨_, effectByFields_of_edgeTimeout a h⟩
  | timingViolation => exact ⟨_, effectByFields_of_timingViolation a h⟩
  | ioError => exact effectByFields_of_ioError a h

/-- A bit wait that expires under `DecoderInvalid` ends the cycle in `Done` (R198). -/
theorem effectByFields_of_abandonedFrame (hp : r.phase = .readingBits) (hw : waitTimedOut r x cfg.tEdgeTimeout)
    (hpol : cfg.bitTimeoutPolicy = .decoderInvalid) :
    effectByFields a cfg x r = ⟨{ r with phase := .done, status := .checksumMismatch, armed := false }, [.read]⟩ := by
  obtain ⟨he, hd⟩ := hw
  obtain ⟨onEdge, h⟩ := effectByFields_bitWait a cfg x hp
  rw [h, bitWait_of_late he hd, bitTimeout_of_decoderInvalid hpol]

/-- The fortieth bit ends the cycle with the verdict on the frame it completes (R197). -/
theorem effectByFields_of_completedFrame (hp : r.phase = .readingBits) (he : x.pinIn ≠ r.refLevel)
    (hh : r.half = true) (hn : r.bitCount = 39) :
    let r' := takeBit cfg x (dur x.now r.tMark) r
    effectByFields a cfg x r = ⟨finish r'.frame r', [.read]⟩ := by
  rw [effectByFields_high_edge a cfg hp hh he]
  simp only [hn, if_true]

end

/-! ## The steps that end a running cycle -/

/-- A step of a running cycle without reset: the effect of the selected micro-operation, which no command accepts. -/
theorem step_of_busy {s t : State} (hr : s.sample.rst = false) (hb : s.regs.busy = true) (h : step s = .next t) :
    t = commit s (commandAnswer s).rsp (effectByFields false s.cfg s.sample s.regs) := by
  obtain ⟨hr', -⟩ | ⟨-, -, ht⟩ := step_cases h
  · rw [hr] at hr'
    cases hr'
  · rwa [commandAnswer_accept_of_busy s hb] at ht

/-- What such a step makes of the cycle. -/
theorem step_cycleOutcome {s t : State} (hr : s.sample.rst = false) (hb : s.regs.busy = true) (h : step s = .next t) :
    CycleOutcome s.cfg s.sample s.regs ⟨t.regs, t.actions⟩ := by
  rw [step_of_busy hr hb h]
  exact (busyEffect_of_busy false s.cfg s.sample s.regs hb).cycleOutcome hb

/-- R235: a running cycle fails with a code exactly at the causes of that code. -/
theorem step_failed_iff_raises {s t : State} (hr : s.sample.rst = false) (hb : s.regs.busy = true)
    (h : step s = .next t) (code : Failure) :
    t.regs.phase = .failed ∧ t.regs.status = code.status ↔ raises s.cfg s.sample s.regs code := by
  constructor
  · rintro ⟨hphase, hstatus⟩
    obtain ⟨code', issued, hc, he⟩ := (step_cycleOutcome hr hb h).fail_of_failed hphase
    obtain ⟨hregs, -⟩ := Effect.mk.inj he
    rw [hregs] at hstatus
    rwa [← Failure.status_injective hstatus]
  · intro hc
    obtain ⟨issued, he⟩ := effectByFields_of_raises false hc
    rw [step_of_busy hr hb h, he]
    exact ⟨rfl, rfl⟩

/-- R233: a running cycle ends with `ChecksumMismatch` exactly at its causes, the checksum being that of the frame the step
leaves. -/
theorem step_mismatch_iff {s t : State} (hr : s.sample.rst = false) (hb : s.regs.busy = true) (h : step s = .next t) :
    t.regs.phase = .done ∧ t.regs.status = .checksumMismatch ↔ discardsFrame s.cfg s.sample s.regs t.regs.frame := by
  constructor
  · rintro ⟨hdone, hbad⟩
    exact (step_cycleOutcome hr hb h).discardsFrame_of_mismatch hdone hbad
  · rw [step_of_busy hr hb h]
    rintro ⟨hp, ⟨he, hd, hpol⟩ | ⟨he, hh, hn, hsum⟩⟩
    · rw [effectByFields_of_abandonedFrame false hp ⟨he, hd⟩ hpol]
      exact ⟨rfl, rfl⟩
    · rw [effectByFields_of_completedFrame false hp he hh hn] at hsum ⊢
      exact ⟨rfl, (finish_status_eq_mismatch_iff _ _).mpr hsum⟩

/-! ## Where `io_err` counts (R67, R234) -/

theorem issuesFailable_of_not_busy {s : State} (hb : s.regs.busy = false) :
    s.issuesFailable = (commandAnswer s).accept := by
  unfold Regs.busy at hb
  unfold State.issuesFailable
  cases hp : s.regs.phase with
  | idle | done | failed => rfl
  | _ => rw [hp] at hb; cases hb

theorem issuesFailable_iff_of_busy {s : State} (hb : s.regs.busy = true) :
    s.issuesFailable = true ↔ issuesRequest s.cfg s.sample s.regs := by
  unfold Regs.busy at hb
  unfold State.issuesFailable issuesRequest
  cases hp : s.regs.phase with
  | idle | done | failed => rw [hp] at hb; cases hb
  | awaitingResponseLow | awaitingResponseHigh | readingBits => simp
  | requesting => cases hq : s.regs.reqStep <;> simp [holdOver]

/-- In a running cycle `io_err` reaches only the steps of the request that ask the port for something. -/
theorem effectByFields_ioErr_of_busy (a : Bool) {cfg : Config} {x : Input} (e : Bool) {r : Regs} (hb : r.busy = true)
    (h : ¬ issuesRequest cfg x r) : effectByFields a cfg { x with ioErr := e } r = effectByFields a cfg x r := by
  unfold Regs.busy at hb
  unfold effectByFields
  cases hp : r.phase with
  | idle | done | failed => rw [hp] at hb; cases hb
  | awaitingResponseLow | awaitingResponseHigh | readingBits => rfl
  | requesting =>
    cases hq : r.reqStep with
    | reqHigh => exact absurd ⟨hp, .inl hq⟩ h
    | reqLow =>
      have hd : dur x.now r.tMark < cfg.tStartLow := BitVec.not_le.mp fun hd => h ⟨hp, .inr (.inl ⟨hq, hd⟩)⟩
      exact (seqReqLow_of_early (x := { x with ioErr := e }) hd).trans (seqReqLow_of_early hd).symm
    | reqRelease =>
      have hd : dur x.now r.tMark < cfg.tRelease := BitVec.not_le.mp fun hd => h ⟨hp, .inr (.inr ⟨hq, hd⟩)⟩
      exact (seqReqRelease_of_early (x := { x with ioErr := e }) hd).trans (seqReqRelease_of_early hd).symm
    | reqTurn => rfl

/-- At a step that issues no failable action the effect does not depend on `io_err`. -/
theorem effectByFields_ioErr {s : State} (h : s.issuesFailable = false) (e : Bool) :
    effectByFields (commandAnswer s).accept s.cfg { s.sample with ioErr := e } s.regs =
      effectByFields (commandAnswer s).accept s.cfg s.sample s.regs := by
  cases hb : s.regs.busy with
  | true =>
    refine effectByFields_ioErr_of_busy _ e hb fun hreq => ?_
    rw [(issuesFailable_iff_of_busy hb).mpr hreq] at h
    cases h
  | false =>
    rw [issuesFailable_of_not_busy hb] at h
    rw [restEffect_of_not_busy _ _ _ _ hb, restEffect_of_not_busy _ _ _ _ hb, h]
    rfl

/-- At a step that issues a failable action `io_err = 1` leads to `Failed` with `IoError`. -/
theorem effectByFields_of_refused {s : State} (h : s.issuesFailable = true) (hi : s.sample.ioErr = true) :
    ∃ issued r, effectByFields (commandAnswer s).accept s.cfg s.sample s.regs = fail .ioError issued r := by
  cases hb : s.regs.busy with
  | true =>
    obtain ⟨issued, he⟩ := effectByFields_of_ioError (commandAnswer s).accept ⟨(issuesFailable_iff_of_busy hb).mp h, hi⟩
    exact ⟨issued, _, he⟩
  | false =>
    rw [issuesFailable_of_not_busy hb] at h
    rw [restEffect_of_not_busy _ _ _ _ hb, if_pos h]
    exact ⟨_, _, if_pos hi⟩

/-! ## The obligations -/

/-- Settles O43: what reaches `Failed` is `fail` at the registers as they stood, whose writes and restore are R236's. -/
theorem failKeepsEveryOtherRegister : Obligations.FailKeepsEveryOtherRegister := by
  intro s t hr hb h hf
  obtain ⟨code, issued, -, he⟩ := (step_cycleOutcome hr hb h).fail_of_failed hf
  obtain ⟨hregs, hacts⟩ := Effect.mk.inj he
  rw [hregs, hacts]
  refine ⟨rfl, ?_, issued, rfl⟩
  cases code with
  | edgeTimeout => exact .inl rfl
  | timingViolation => exact .inr (.inl rfl)
  | ioError => exact .inr (.inr rfl)

/-- Settles O44: the first column of R235's table. -/
theorem edgeTimeoutCauses : Obligations.EdgeTimeoutCauses :=
  fun _ _ hr hb h => step_failed_iff_raises hr hb h .edgeTimeout

/-- Settles O45: the second column of R235's table. -/
theorem timingViolationCauses : Obligations.TimingViolationCauses :=
  fun _ _ hr hb h => step_failed_iff_raises hr hb h .timingViolation

/-- Settles O46: the cause is R233's, and neither way into `Done` touches the pin. -/
theorem checksumMismatchCauses : Obligations.ChecksumMismatchCauses := by
  refine fun s t hr hb h => ⟨step_mismatch_iff hr hb h, fun hdone hbad => ?_⟩
  obtain ⟨hdir, hout, hacts⟩ := (step_cycleOutcome hr hb h).keepsPin_of_done hdone
  have hinvalid : t.regs.status ≠ .valid := by rw [hbad]; decide
  exact ⟨if_neg hinvalid, if_neg hinvalid, hdir, hout, hacts⟩

/-- Settles O47: a step that asks the port for something fails where the port refuses, and at any other step neither the
answer nor the effect depends on `io_err`. -/
theorem ioErrorOnlyAtFailableActions : Obligations.IoErrorOnlyAtFailableActions := by
  refine fun s hr hc => ⟨fun hissues hi => ?_, fun hissues e => step_withSample_eq rfl rfl (effectByFields_ioErr hissues e)⟩
  obtain ⟨issued, r, he⟩ := effectByFields_of_refused hissues hi
  rw [step_of_not_rst s hr hc, he]
  exact ⟨_, rfl, rfl, rfl⟩

end Sys2Proof.Machine

/-! # Proofs for the statements of 70_reset_and_hazards.md: what a reset leaves behind -/

namespace Sys2Proof.Machine

/-! ## A `POLL` that finds the gate open -/

/-- Before the first gate-pass the gate is open, whatever the clock says (R211). -/
theorem gate_of_no_last {r : Regs} (cfg : Config) (now : Time) (hl : r.haveLast = false) : gate cfg now r = true :=
  (gate_eq_true_iff cfg now r).mpr (.inl hl)

/-- A `POLL` presented at rest with the gate open is accepted (R213). -/
theorem step_accepts_poll {s : State} (hr : s.sample.rst = false) (hc : s.regs.bitCount.toNat ≤ 40)
    (hv : s.sample.cmdValid = true) (hcmd : s.sample.cmd = 1) (hb : s.regs.busy = false)
    (hg : gate s.cfg s.sample.now s.regs = true) : ∃ u, step s = .next u ∧ u.rsp = .accepted := by
  obtain ⟨-, hvalid⟩ := commandAnswersInPriorityOrder s
  obtain ⟨-, -, hpoll⟩ := hvalid hv
  obtain ⟨-, hopen, -⟩ := hpoll hcmd
  refine ⟨_, step_of_not_rst s hr hc, ?_⟩
  rw [commit_rsp, hopen hb hg]

/-! ## The registers of R39 -/

/-- `Idle` holds no report (R37). -/
theorem reset_rptValid : Regs.reset.rptValid = false := rfl

/-- The status `None` has the code 0. -/
theorem reset_rptStatus : Regs.reset.rptStatus = 0 := rfl

/-- `Idle` is no phase of a running cycle (R37). -/
theorem reset_busy : Regs.reset.busy = false := rfl

/-- No bit has been counted. -/
theorem reset_bitCount_le : Regs.reset.bitCount.toNat ≤ 40 := by decide

/-- No gate-pass is recorded (R23). -/
theorem reset_haveLast : Regs.reset.haveLast = false := rfl

/-! ## The obligation -/

/-- Settles O14: the registers are R39's, where nothing runs and no gate-pass is recorded, so the gate is open at any
time. -/
theorem resetLeavesNoReportAndAnOpenGate : Obligations.ResetLeavesNoReportAndAnOpenGate := by
  intro s t hr h
  have ht : t.regs = Regs.reset := by
    rw [step_of_rst hr] at h
    cases h
    exact resetStep_regs s
  rw [ht]
  refine ⟨reset_rptValid, reset_rptStatus, reset_busy, fun x hxr hxv hxc => ?_⟩
  have hregs : (t.withSample x).regs = Regs.reset := (State.withSample_regs t x).trans ht
  refine step_accepts_poll hxr ?_ hxv hxc ?_ (gate_of_no_last _ _ ?_) <;> rw [hregs]
  · exact reset_bitCount_le
  · exact reset_busy
  · exact reset_haveLast

end Sys2Proof.Machine
